-- ==== Sys2Proof/Word.lean ====
section
/-!
DEFINITION. The bit-vector types of the CBF-620: what the spec treats as bits (frame bytes, tags, motion command
numbers, photodiode samples). Counts, doses, widths and positions are exact integers (00_scope, Integer arithmetic)
and stay Nat.
-/

namespace Sys2Proof

/-- One byte of a feed link frame (R184) or one character of the motion port (R137). -/
abbrev Byte := BitVec 8

/-- The server's 32-bit reference in a record header, echoed and not interpreted (00_scope, Terms). -/
abbrev Tag := BitVec 32

/-- The server's 32-bit fiche sequence number (R1). -/
abbrev FicheSeq := BitVec 32

/-- A motion command number, 0 to 255, wrapping from 255 to 0 (R138). -/
abbrev CommandNumber := BitVec 8

/-- A 16-bit photodiode sample, 0 to 65,535 (R110). -/
abbrev Sample := BitVec 16

end Sys2Proof
end

