-- ==== Sys2Proof/Syntax.lean ====
section
/-!
DEFINITION. The commands of the CBF-620: one constructor per row of spec/opcode_table.json, in the table's order.
A record's own fields stand in the inbound queue, so a hand-over command carries none; an event from outside carries
what arrives with it.
-/

namespace Sys2Proof

/-- How the receiver lost the signal (R181): signal detect fell, or alignment was lost with signal detect still high. -/
inductive LossCause where
  | signalDetectFell
  | alignmentLost
deriving DecidableEq, Repr

/-- The fault code of a FAULT reply (R139). -/
inductive ReplyCode where
  | noStock
  | jam
  | limit
deriving DecidableEq, Repr

/-- The commands, one per row of the table. -/
inductive Instr where
  /-- POWER_ON (R32): power is applied. -/
  | powerOn
  /-- SIGNAL_DETECT_RISING (R181): signal appears on the receive pair. -/
  | signalDetectRising
  /-- ALIGNMENT (R183): the receiver has found the character boundary. -/
  | alignment
  /-- LOSS_OF_SIGNAL (R182), with its cause (R181). -/
  | lossOfSignal (cause : LossCause)
  /-- FRAME_RECEIVED (R185): an end delimiter came after these frame bytes. -/
  | frameReceived (bytes : List Byte)
  /-- FRAME_ENDED_BY_START_DELIMITER (R185): a start delimiter came after these frame bytes. -/
  | frameEndedByStartDelimiter (bytes : List Byte)
  /-- TRANSMISSION_ENDS (R198): the report on the wire is complete. -/
  | transmissionEnds
  /-- REPORT_PLACED (R199): a freed place is given to the waiting slot composed earliest. -/
  | reportPlaced
  /-- FOPEN (R11): the FOPEN at the head is offered to the job controller. -/
  | fopen
  /-- FCLOSE (R17): the FCLOSE at the head is offered to the job controller. -/
  | fclose
  /-- PHEAD (R40): the PHEAD at the head is examined. -/
  | phead
  /-- PHEAD_TAKE (R42): the checked PHEAD at the head is taken. -/
  | pheadTake
  /-- PBAND (R45): the PBAND at the head is examined. -/
  | pband
  /-- BAND_LINE (R49): the next source line of the band in hand is consumed. -/
  | bandLine
  /-- PEND (R57): the PEND at the head is examined. -/
  | pend
  /-- TOP_MARGIN_LINE (R44): a top margin line is appended. -/
  | topMarginLine
  /-- FILL_LINE (R57): a fill line is appended. -/
  | fillLine
  /-- TWRITE (R167): the TWRITE at the head is judged. -/
  | twrite
  /-- TREAD (R171): the TREAD at the head is judged. -/
  | tread
  /-- QSTAT (R203): the QSTAT at the head is taken. -/
  | qstat
  /-- ABORT (R192): an ABORT record with this tag has passed tests 1 to 4 of R185. -/
  | abort (tag : Tag)
  /-- RESET_FULL (R32): a RESET record with the FULL option has passed tests 1 to 4 of R185. -/
  | resetFull (tag : Tag)
  /-- RESET_SOFT (R33): a RESET record with the SOFT option has passed tests 1 to 4 of R185. -/
  | resetSoft (tag : Tag)
  /-- DONE (R140): a readable DONE reply with this command number. -/
  | done (number : CommandNumber)
  /-- FAULT (R143): a readable FAULT reply with this command number and fault code. -/
  | fault (number : CommandNumber) (code : ReplyCode)
  /-- MOTION_TIMEOUT (R144): the motion timer expires. -/
  | motionTimeout
  /-- CONVERSION (R110): a photodiode conversion completes with this raw value. -/
  | conversion (raw : Sample)
  /-- WARM_TIMER_EXPIRY (R129). -/
  | warmTimerExpiry
  /-- PARK_TIMER_EXPIRY (R131). -/
  | parkTimerExpiry
  /-- LINE_END (R74): one line period after an image line start. -/
  | lineEnd
  /-- FLOOD_LINE_END (R78): one line period after a flood line start. -/
  | floodLineEnd
  /-- HOLD_TIMER_EXPIRY (R76). -/
  | holdTimerExpiry
  /-- LAST_CHARACTER_SENT (R138): the last character of the motion command has been sent. -/
  | lastCharacterSent
  /-- RECEIVED_LINE_IGNORED (R139): these characters, a line feed last, were received on the motion port. -/
  | receivedLineIgnored (line : List Byte)
deriving DecidableEq, Repr

end Sys2Proof
end

