-- ==== Sys2Proof/Decode.lean ====
section
/-!
DEFINITION. The command a word spells by the table's bits. No row of spec/opcode_table.json gives bits (every
"fields" list is empty and no row has "fixed"), so no word spells a command.
-/

namespace Sys2Proof

/-- No row of the table gives bits: every word is refused (log 23). -/
def decodeTableWord (_nbits _w : Nat) : Option Instr := none

end Sys2Proof
end

