-- ==== Sys2Proof/Config.lean ====
section
/-!
DEFINITION. The constants the spec fixes for the CBF-620: capacities, timeouts, clamps. The spec leaves no value
undefined after a command, so there is no opaque constant here.
-/

namespace Sys2Proof.Config

/-- Places of the inbound queue (R188). -/
def inboundSize : Nat := 16
/-- Places of the report queue (R198). -/
def reportQueueSize : Nat := 32
/-- The credits-to-return counter stops here (R189), and a re-base grants as many (R190). -/
def creditLimit : Nat := 16
/-- Slots of the line store (R59). -/
def storeSize : Nat := 8
/-- At most two frame contexts exist (R35). -/
def contextLimit : Nat := 2
/-- The receiver counts frame bytes up to this number and stores one fewer (R185). -/
def frameByteCap : Nat := 16397
/-- The largest payload (R185 test 3). -/
def payloadMax : Nat := 16384
/-- The LED head's emitters (R73). -/
def emitters : Nat := 2048
/-- The correction factor that stands for 1.0 (R122). -/
def unity : Nat := 16384
/-- The least correction factor (R122). -/
def cMin : Nat := 12288
/-- The greatest correction factor (R122). -/
def cMax : Nat := 24576
/-- Tick-counts in one dose unit (R94). -/
def doseUnit : Nat := 65536
/-- LOAD's timeout in ms (R140). -/
def loadTimeout : Nat := 4000
/-- MOVE's timeout in ms (R140). -/
def moveTimeout : Nat := 500
/-- EJECT's timeout in ms (R140). -/
def ejectTimeout : Nat := 4000
/-- HOME's timeout in ms (R140). -/
def homeTimeout : Nat := 10000
/-- The warm timer's load in ms (R126). -/
def warmTimeout : Nat := 30000
/-- A received motion line of more characters than this, its line feed included, is too long (R137). -/
def motionLineMax : Nat := 32
/-- The average length while no profile is pinned and profile 0 is invalid (R111). -/
def defaultAverage : Nat := 16
/-- The unit settings' park delay after power-on and RESET FULL, in seconds (R165). -/
def defaultParkDelay : Nat := 60
/-- The part code in HELLO (R183). -/
def partCode : String := "CBF-620"
/-- The revision the described parts report in HELLO (R183). -/
def revision : Nat := 1

end Sys2Proof.Config
end

