-- ==== Sys2Proof/Machine/State.lean ====
section
/-!
DEFINITION. The state of the CBF-620, block by block, as plain data, and its value after power-on.
-/

namespace Sys2Proof.Machine

/-! ### Tables (spec/07) -/

/-- Fill order of a layout (R159), in its listed order. -/
inductive FillOrder where
  | row
  | column
deriving DecidableEq, Repr

/-- The fields of a layout entry (R159). -/
structure Layout where
  rows : Nat
  columns : Nat
  wc : Nat
  hc : Nat
  originX : Nat
  originY : Nat
  pitchX : Nat
  pitchY : Nat
  titleRow : Bool
  indexCells : Nat
  fillOrder : FillOrder
deriving DecidableEq, Repr

/-- A layout with every field 0 (R158). -/
def Layout.zero : Layout :=
  { rows := 0, columns := 0, wc := 0, hc := 0, originX := 0, originY := 0, pitchX := 0, pitchY := 0,
    titleRow := false, indexCells := 0, fillOrder := .row }

/-- Alignment of a page in its cell (R163), in its listed order. -/
inductive Alignment where
  | centre
  | topLeft
deriving DecidableEq, Repr

/-- What the head monitor compares against the limits (R115), in R163's listed order. -/
inductive CompareBasis where
  | raw
  | averaged
deriving DecidableEq, Repr

/-- Alert mode (R117, R118), in R163's listed order. -/
inductive AlertMode where
  | latched
  | transparent
deriving DecidableEq, Repr

/-- The fields of a profile entry (R163). `correctionOn` is YES for ON. -/
structure Profile where
  layout : Nat
  curve : Nat
  linePeriod : Nat
  pulseMax : Nat
  voidPulse : Nat
  fillGray : Nat
  alignment : Alignment
  holdLimit : Nat
  mRef : Nat
  correctionOn : Bool
  overLimit : Nat
  underLimit : Nat
  averaging : Nat
  basis : CompareBasis
  alertMode : AlertMode
  doseTolerance : Nat
  warmCount : Nat
  maxVoids : Nat
  indexRequired : Bool
deriving DecidableEq, Repr

/-- A profile with every field 0 (R158): a field of named values holds the first of its list (R187). -/
def Profile.zero : Profile :=
  { layout := 0, curve := 0, linePeriod := 0, pulseMax := 0, voidPulse := 0, fillGray := 0, alignment := .centre,
    holdLimit := 0, mRef := 0, correctionOn := true, overLimit := 0, underLimit := 0, averaging := 0, basis := .raw,
    alertMode := .latched, doseTolerance := 0, warmCount := 0, maxVoids := 0, indexRequired := false }

/-- A set of curve quarters, named by the gray each begins at (R161). -/
structure Quarters where
  q0 : Bool
  q64 : Bool
  q128 : Bool
  q192 : Bool
deriving DecidableEq, Repr

/-- A layout entry with its validity (R158). -/
structure LayoutEntry where
  valid : Bool
  fields : Layout
deriving DecidableEq, Repr

/-- A curve entry: 256 values and the set of quarters written (R161). -/
structure CurveEntry where
  values : List Nat
  written : Quarters
deriving DecidableEq, Repr

/-- A profile entry with its validity (R158). -/
structure ProfileEntry where
  valid : Bool
  fields : Profile
deriving DecidableEq, Repr

/-- The unit settings (R165): park delay in seconds, alert reports enabled. -/
structure UnitSettings where
  parkDelay : Nat
  alertReports : Bool
deriving DecidableEq, Repr

/-- The pin marks: the numbers of the pinned profile, layout and curve (R173, R177). -/
structure Pins where
  profile : Nat
  layout : Nat
  curve : Nat
deriving DecidableEq, Repr

/-- The table store (R158). -/
structure Tables where
  layouts : List LayoutEntry
  curves : List CurveEntry
  profiles : List ProfileEntry
  unit : UnitSettings
  pins : Option Pins
deriving DecidableEq, Repr

/-! ### Fiche job controller (spec/01) -/

/-- Job states. `opened` is the state the spec calls OPEN. -/
inductive JobState where
  | idle
  | opening
  | opened
  | closing
  | ending
  | faulted
deriving DecidableEq, Repr

/-- Fiche outcomes (R1). -/
inductive FicheOutcome where
  | complete
  | incomplete
  | empty
  | aborted
  | reset
  | linkLost
  | noStock
  | headNotReady
  | transportFault
deriving DecidableEq, Repr

/-- Where the card went (R1). -/
inductive Stack where
  | accept
  | reject
  | noStack
deriving DecidableEq, Repr

/-- A transport fault code (R1, R153). `noFault` is NONE. -/
inductive TransportCode where
  | noFault
  | jam
  | limit
  | timeout
deriving DecidableEq, Repr

/-- Cell kinds (R2). -/
inductive CellKind where
  | title
  | data
  | index
deriving DecidableEq, Repr

/-- Cell states (R3). -/
inductive CellState where
  | free
  | assigned
  | exposing
  | exposed
  | exposedFault
  | void
deriving DecidableEq, Repr

/-- A set of intake flags (R37). -/
structure IntakeFlags where
  cropped : Bool
  short : Bool
  long : Bool
  gap : Bool
  dup : Bool
  noEnd : Bool
deriving DecidableEq, Repr

/-- The empty set of intake flags. -/
def IntakeFlags.none : IntakeFlags :=
  { cropped := false, short := false, long := false, gap := false, dup := false, noEnd := false }

/-- A set of engine flags (R65). -/
structure EngineFlags where
  held : Bool
  pulseClamp : Bool
  corrSat : Bool
  limit : Bool
  dose : Bool
deriving DecidableEq, Repr

/-- The empty set of engine flags. -/
def EngineFlags.none : EngineFlags :=
  { held := false, pulseClamp := false, corrSat := false, limit := false, dose := false }

/-- The flag set of a frame map entry (R3): the union R9 forms. -/
structure FrameFlags where
  intake : IntakeFlags
  engine : EngineFlags
deriving DecidableEq, Repr

/-- One frame map entry (R3). -/
structure Cell where
  kind : CellKind
  state : CellState
  key : Option (List Byte)
  flags : FrameFlags
  holdCount : Nat
  a : Option Nat
  p : Option Nat
  linesExposed : Nat
  linesFlooded : Nat
deriving DecidableEq, Repr

/-- The fiche record (R1). -/
structure Fiche where
  seq : FicheSeq
  openTag : Tag
  closeTag : Option Tag
  profile : Nat
  layout : Nat
  curve : Nat
  openingMet : Bool
  outcome : Option FicheOutcome
  stack : Option Stack
  faultCode : TransportCode
  dose : Nat
  voidCount : Nat
  closed : Bool
  map : List Cell
deriving DecidableEq, Repr

/-- What the job controller does when the engine signals its stop: the ending disposal (R24) or the RESET FULL's
clearing, parking and HOME (R32, R134, R179). The model's own field. -/
inductive StopPurpose where
  | disposal
  | resetFull
deriving DecidableEq, Repr

/-- The fiche job controller. `fopenedDue` (the model's own) marks a FOPENED that fell due and is not yet composed
(R11's deferred composition). -/
structure Job where
  state : JobState
  fiche : Option Fiche
  fopenedDue : Bool
  onStop : Option StopPurpose
deriving DecidableEq, Repr

/-! ### Page intake (spec/02) -/

/-- Intake states (R38). -/
inductive IntakeState where
  | pageIdle
  | fillTop
  | taking
  | fillBottom
  | discarding
deriving DecidableEq, Repr

/-- A placement offset (R36): a margin before the image, or a skip into it. -/
inductive Offset where
  | margin (n : Nat)
  | skip (n : Nat)
deriving DecidableEq, Repr

/-- The intake side of a frame context (R36). -/
structure Context where
  cell : Nat
  key : Option (List Byte)
  w : Nat
  h : Nat
  depth : Nat
  d : Nat
  wd : Nat
  hd : Nat
  hOff : Offset
  vOff : Offset
  e : Nat
  placed : Nat
  pendingLine : Option (List Nat)
  ended : Bool
  voided : Bool
  flags : IntakeFlags
deriving DecidableEq, Repr

/-- One line of the line store (R59). `cell` names the context it belongs to. -/
structure PlacedLine where
  cell : Nat
  lineNo : Nat
  grays : List Nat
deriving DecidableEq, Repr

/-- The band in hand (R49): its first line number, its line count, and how many of its lines are dealt with. -/
structure Band where
  first : Nat
  count : Nat
  dealt : Nat
deriving DecidableEq, Repr

/-- Page intake. `contexts` lists the EXPOSING context first (R35); `orphan` is the page that goes on after its
context was released (R56). -/
structure Intake where
  state : IntakeState
  contexts : List Context
  orphan : Option Context
  store : List PlacedLine
  band : Option Band
  pheadChecked : Bool
deriving DecidableEq, Repr

/-! ### Exposure engine (spec/03) -/

/-- Engine states (spec/03, table of engine states). -/
inductive EngineState where
  | idle
  | waitOpen
  | moving
  | exposing
  | holding
  | flooding
  | frameEnd
deriving DecidableEq, Repr

/-- The exposure side of the admitted context (R65). -/
structure Exposure where
  cell : Nat
  row : Nat
  column : Nat
  x : Nat
  y : Nat
  key : Option (List Byte)
  linesExposed : Nat
  linesFlooded : Nat
  a : Nat
  p : Nat
  holdCount : Nat
  flags : EngineFlags
  mMin : Option Nat
  mMax : Option Nat
  carried : Option IntakeFlags
deriving DecidableEq, Repr

/-- The line being driven: an image line with its base widths and the reference reading P_line uses (R95), or a
flood line (R96). -/
inductive DrivenLine where
  | image (bases : List Nat) (mRef : Nat)
  | flood
deriving DecidableEq, Repr

/-- The exposure engine with its latched line values (R65). -/
structure Engine where
  state : EngineState
  exposure : Option Exposure
  holdTimer : Option Nat
  m : Nat
  c : Nat
  sat : Bool
  widths : List Nat
  driven : Option DrivenLine
  stopping : Bool
deriving DecidableEq, Repr

/-! ### Head monitor (spec/05) -/

/-- Head states (spec/05, Head States). -/
inductive HeadState where
  | parked
  | warming
  | ready
deriving DecidableEq, Repr

/-- The head monitor (spec/05, state table). `overActive` and `underActive` are the OVER and UNDER states; timers are in ms. -/
structure Head where
  state : HeadState
  raw : Nat
  sum : Nat
  count : Nat
  len : Option Nat
  mAvg : Nat
  mValid : Bool
  c : Nat
  sat : Bool
  overActive : Bool
  underActive : Bool
  warmCounter : Nat
  warmTimer : Option Nat
  parkTimer : Option Nat
deriving DecidableEq, Repr

/-! ### Card transport (spec/06) -/

/-- Card states (spec/06, Card States). -/
inductive CardState where
  | homing
  | empty
  | loading
  | loaded
  | moving
  | atCell
  | ejecting
  | fault
deriving DecidableEq, Repr

/-- The stack an EJECT names (R138). -/
inductive EjectStack where
  | accept
  | reject
deriving DecidableEq, Repr

/-- A motion command or request with its arguments (R138, R150). -/
inductive Motion where
  | load
  | move (cell x y : Nat)
  | eject (stack : EjectStack)
  | home
deriving DecidableEq, Repr

/-- The command in flight with its number (R138). -/
structure InFlight where
  number : CommandNumber
  motion : Motion
deriving DecidableEq, Repr

/-- The card transport controller (spec/06, state table). The motion timer is stopped while a command is still being
sent (R138). -/
structure Transport where
  card : CardState
  inFlight : Option InFlight
  pendingReq : Option Motion
  timer : Option Nat
  nextNumber : CommandNumber
  position : Option Nat
  faultCode : TransportCode
deriving DecidableEq, Repr

/-! ### Feed link (spec/08) -/

/-- Link states (R181). -/
inductive LinkState where
  | down
  | training
  | up
deriving DecidableEq, Repr

/-- Record kinds (kinds table of spec/08). -/
inductive RecordKind where
  | fopen
  | fclose
  | phead
  | pband
  | pend
  | twrite
  | tread
  | qstat
  | abort
  | reset
deriving DecidableEq, Repr

/-- A received record: its header fields and payload (R184, R206). -/
structure Record where
  kind : RecordKind
  flags : Byte
  tag : Tag
  payload : List Byte
deriving DecidableEq, Repr

/-- Refusal codes (R205). -/
inductive RefusalCode where
  | busy
  | noFiche
  | noPage
  | badField
  | tableInvalid
  | tableInUse
  | cellTaken
  | ficheFull
  | bandLength
  | faulted
deriving DecidableEq, Repr

/-- LINKERR codes (R186). -/
inductive LinkErrorCode where
  | linkCrc
  | recordLength
  | unknownKind
  | flow
deriving DecidableEq, Repr

/-- ABORT's result codes (R22). -/
inductive AbortResult where
  | nothing
  | taken
  | tooLate
  | already
  | faulted
deriving DecidableEq, Repr

/-- RESET's option (R191). -/
inductive ResetOption where
  | soft
  | full
deriving DecidableEq, Repr

/-- Table selectors (R187). -/
inductive TableSel where
  | layout
  | curve
  | profile
  | unit
deriving DecidableEq, Repr

/-- OVER or UNDER (R119). -/
inductive AlertKind where
  | overLimit
  | underLimit
deriving DecidableEq, Repr

/-- What HELLO says of the fiche (R183). -/
structure HelloFiche where
  seq : FicheSeq
  outcome : Option FicheOutcome
  stack : Option Stack
deriving DecidableEq, Repr

/-- The validity summary (R177): layouts' validities, curves' written quarters and validities, profiles' validities
and openability, the pins. -/
structure ValiditySummary where
  layouts : List Bool
  curves : List (Quarters × Bool)
  profiles : List (Bool × Bool)
  pins : Option Pins
deriving DecidableEq, Repr

/-- HELLO (R183). -/
structure HelloReport where
  partCode : String
  revision : Nat
  summary : ValiditySummary
  fiche : Option HelloFiche
  jobState : JobState
deriving DecidableEq, Repr

/-- FOPENED (R30). -/
structure FopenedReport where
  tag : Tag
  seq : FicheSeq
  profile : Nat
  layout : Nat
  curve : Nat
  rows : Nat
  columns : Nat
  cellCount : Nat
  titleCells : Nat
  dataCells : Nat
  indexCells : Nat
deriving DecidableEq, Repr

/-- FRAME (R81). -/
structure FrameReport where
  seq : FicheSeq
  cell : Nat
  kind : CellKind
  final : CellState
  flags : FrameFlags
  holdCount : Nat
  linesExposed : Nat
  linesFlooded : Nat
  a : Nat
  p : Nat
  mMin : Nat
  mMax : Nat
  key : Option (List Byte)
deriving DecidableEq, Repr

/-- Counts of cells by state (R204). -/
structure CellCounts where
  cells : Nat
  free : Nat
  assigned : Nat
  exposing : Nat
  exposed : Nat
  exposedFault : Nat
  void : Nat
deriving DecidableEq, Repr

/-- FCLOSED (R31). -/
structure FclosedReport where
  tag : Tag
  seq : FicheSeq
  outcome : Option FicheOutcome
  stack : Option Stack
  faultCode : TransportCode
  cellCount : Nat
  free : Nat
  assigned : Nat
  exposed : Nat
  exposedFault : Nat
  void : Nat
  voidCount : Nat
  dose : Nat
deriving DecidableEq, Repr

/-- What a TDONE says of the entry written (R169). -/
inductive WrittenEntry where
  | layout (valid : Bool) (dataCells : Nat)
  | curve (offset : Nat) (written : Quarters) (valid : Bool)
  | profile (valid : Bool) (openable : Bool)
  | unit
deriving DecidableEq, Repr

/-- TDONE (R169). -/
structure TdoneReport where
  tag : Tag
  table : TableSel
  entry : Nat
  written : WrittenEntry
deriving DecidableEq, Repr

/-- What a TDATA carries of the entry read (R172). -/
inductive ReadEntry where
  | layout (valid pinned : Bool) (fields : Layout)
  | curve (valid pinned : Bool) (offset : Nat) (values : List Nat) (written : Quarters)
  | profile (valid pinned : Bool) (fields : Profile)
  | unit (fields : UnitSettings)
deriving DecidableEq, Repr

/-- TDATA (R172). -/
structure TdataReport where
  tag : Tag
  table : TableSel
  entry : Nat
  contents : ReadEntry
deriving DecidableEq, Repr

/-- STAT (R204). -/
structure StatReport where
  tag : Tag
  linkState : LinkState
  jobState : JobState
  engineState : EngineState
  headState : HeadState
  card : CardState
  faultCode : TransportCode
  seq : FicheSeq
  counts : CellCounts
  voidCount : Nat
  mAvg : Nat
  mValid : Bool
  c : Nat
  overActive : Bool
  underActive : Bool
  overflow : Bool
  lastRefusal : Option RefusalCode
deriving DecidableEq, Repr

/-- The head monitor's ALERT (R119). -/
structure LimitAlert where
  kind : AlertKind
  value : Nat
  basis : CompareBasis
  limit : Nat
  headState : HeadState
  seq : FicheSeq
deriving DecidableEq, Repr

/-- A motion command's word (R137). -/
inductive MotionWord where
  | load
  | move
  | eject
  | home
deriving DecidableEq, Repr

/-- The command arguments an ALERT of kind TRANSPORT carries (R145). -/
inductive MotionArgs where
  | noArgs
  | position (x y : Nat)
  | stack (stack : EjectStack)
deriving DecidableEq, Repr

/-- The transport controller's ALERT (R145). -/
structure TransportAlert where
  code : TransportCode
  command : MotionWord
  number : CommandNumber
  cardBefore : CardState
  arguments : MotionArgs
  seq : FicheSeq
deriving DecidableEq, Repr

/-- REFUSED (R205). -/
structure RefusedReport where
  kind : RecordKind
  tag : Tag
  code : RefusalCode
deriving DecidableEq, Repr

/-- LINKERR (R186). -/
structure LinkErrReport where
  code : LinkErrorCode
  kindByte : Nat
  lengthField : Nat
  b : Nat
  tag : Tag
deriving DecidableEq, Repr

/-- ABORTED (R192). -/
structure AbortedReport where
  tag : Tag
  result : AbortResult
  seq : FicheSeq
deriving DecidableEq, Repr

/-- RESETDONE (R194). -/
structure ResetDoneReport where
  tag : Tag
  option : ResetOption
  priorSeq : FicheSeq
  ficheEnded : Bool
deriving DecidableEq, Repr

/-- The reports the part sends (kinds table of spec/08), each with its contents. -/
inductive Report where
  | hello (r : HelloReport)
  | credit
  | fopened (r : FopenedReport)
  | frame (r : FrameReport)
  | fclosed (r : FclosedReport)
  | tdone (r : TdoneReport)
  | tdata (r : TdataReport)
  | stat (r : StatReport)
  | limitAlert (r : LimitAlert)
  | transportAlert (r : TransportAlert)
  | refused (r : RefusedReport)
  | linkErr (r : LinkErrReport)
  | aborted (r : AbortedReport)
  | resetDone (r : ResetDoneReport)
deriving DecidableEq, Repr

/-- The owners of the holding slots (R199); `priority` is the priority reply slot, `link` the link interface's own. -/
inductive Producer where
  | job
  | engine
  | tables
  | status
  | link
  | priority
deriving DecidableEq, Repr

/-- The report on the wire with the credit count and re-base mark its transmission took (R189, R190). -/
structure Sending where
  report : Report
  credit : Nat
  rebase : Bool
deriving DecidableEq, Repr

/-- The feed link interface (spec/08, state table). `slots` lists the occupied holding slots, the earliest composed
report first (R199); `windowOpen` is the grant window (R190). -/
structure Link where
  state : LinkState
  inbound : List Record
  counter : Nat
  windowOpen : Bool
  reports : List Report
  inTransmission : Option Sending
  slots : List (Producer × Report)
  overflow : Bool
  lastRefusal : Option RefusalCode
deriving DecidableEq, Repr

/-! ### The whole state -/

/-- The CBF-620 and the queue of commands waiting for it. -/
structure State where
  link : Link
  job : Job
  tables : Tables
  intake : Intake
  engine : Engine
  head : Head
  transport : Transport
  pending : List Instr
deriving DecidableEq, Repr

/-- No command stops the block: no rule of the spec gives an event that does. Nobody raises a Fault. -/
inductive Fault where
deriving DecidableEq, Repr

/-- Reasons to have no meaning for a command. -/
inductive Refusal where
  /-- Raised by the dispatcher for a command that has no meaning yet; safe. -/
  | notModelled (mnemonic : String)
deriving DecidableEq, Repr

/-! ### Reset values -/

/-- The table store after power-on (R178). -/
def Tables.reset : Tables :=
  { layouts := List.replicate 8 { valid := false, fields := Layout.zero }
    curves := List.replicate 4
      { values := List.replicate 256 0, written := { q0 := false, q64 := false, q128 := false, q192 := false } }
    profiles := List.replicate 8 { valid := false, fields := Profile.zero }
    unit := { parkDelay := Config.defaultParkDelay, alertReports := true }
    pins := none }

/-- The link interface after power-on (R207). -/
def Link.reset : Link :=
  { state := .down, inbound := [], counter := 0, windowOpen := false, reports := [], inTransmission := none,
    slots := [], overflow := false, lastRefusal := none }

/-- The job controller after power-on (R32). -/
def Job.reset : Job :=
  { state := .ending, fiche := none, fopenedDue := false, onStop := none }

/-- Page intake after power-on (R64). -/
def Intake.reset : Intake :=
  { state := .pageIdle, contexts := [], orphan := none, store := [], band := none, pheadChecked := false }

/-- The exposure engine after power-on (R93). -/
def Engine.reset : Engine :=
  { state := .idle, exposure := none, holdTimer := none, m := 0, c := Config.unity, sat := false, widths := [],
    driven := none, stopping := false }

/-- The head monitor after power-on (R133). -/
def Head.reset : Head :=
  { state := .parked, raw := 0, sum := 0, count := 0, len := none, mAvg := 0, mValid := false, c := Config.unity,
    sat := false, overActive := false, underActive := false, warmCounter := 0, warmTimer := none, parkTimer := none }

/-- The transport controller after power-on (R154): HOME, number 0, requested at once (R32) and being sent. -/
def Transport.reset : Transport :=
  { card := .homing, inFlight := some { number := 0, motion := .home }, pendingReq := none, timer := none,
    nextNumber := 1, position := none, faultCode := .noFault }

/-- The part right after power-on, with no command waiting. -/
def State.reset : State :=
  { link := Link.reset, job := Job.reset, tables := Tables.reset, intake := Intake.reset, engine := Engine.reset,
    head := Head.reset, transport := Transport.reset, pending := [] }

end Sys2Proof.Machine
end

