-- ==== Sys2Proof/Machine/Flags.lean ====
section
/-!
DEFINITION. The arithmetic and the flag computations of the spec: placement (R43), decimation (R52), composition (R54),
pulse widths (R73), doses (R94 to R96, R100), averages (R111), correction (R122), and the unions of flags (R9, R79).
-/

namespace Sys2Proof.Machine

/-! ### Placement and decimation (spec/02) -/

/-- One direction of placement (R43): margin where the image fits, skip where it does not. -/
def placementOffset (image cell : Nat) (align : Alignment) : Offset :=
  if image ≤ cell then
    match align with
    | .centre => .margin ((cell - image) / 2)
    | .topLeft => .margin 0
  else
    match align with
    | .centre => .skip ((image - cell) / 2)
    | .topLeft => .skip 0

/-- The top margin of a vertical offset; a skip has none. -/
def Offset.marginLines : Offset → Nat
  | .margin n => n
  | .skip _ => 0

/-- One decimated value from the four grays of its block (R52). -/
def decimatePixel (a b c e : Nat) : Nat := (a + b + c + e + 2) / 4

/-- A decimated line from source lines 2k and 2k + 1: column j from columns 2j and 2j + 1; an odd last column takes no
part (R52). -/
def decimateLines : List Nat → List Nat → List Nat
  | a :: b :: top, c :: e :: bottom => decimatePixel a b c e :: decimateLines top bottom
  | _, _ => []

/-- A placed image line of `wc` values from its decimated line (R54). -/
def composeLine (wc fill : Nat) (hOff : Offset) (line : List Nat) : List Nat :=
  match hOff with
  | .margin ml => List.replicate ml fill ++ line ++ List.replicate (wc - ml - line.length) fill
  | .skip sx => (line.drop sx).take wc

/-- The placed line number of decimated line k (R53); `none` where k is consumed without placement. -/
def placedNumber (vOff : Offset) (hc k : Nat) : Option Nat :=
  match vOff with
  | .margin mt => some (mt + k)
  | .skip s => if s ≤ k ∧ k < s + hc then some (k - s) else none

/-! ### Pulse widths and doses (spec/03, spec/04) -/

/-- t before the clamp (R73 step 2). -/
def correctedWidth (base c : Nat) : Nat := (base * c + 8192) / 16384

/-- t as driven (R73 step 3). -/
def drivenWidth (pulseMax c base : Nat) : Nat := min (correctedWidth base c) pulseMax

/-- A width exceeded pulse max before its clamp (R73 step 3: PULSE_CLAMP). -/
def clampActs (pulseMax c base : Nat) : Bool := pulseMax < correctedWidth base c

/-- A line dose: a width sum times a light level in dose units (R94 to R96). -/
def lineDose (sum level : Nat) : Nat := sum * level / Config.doseUnit

/-- The frame dose check (R100): DOSE is set. -/
def doseDisagrees (a p tolerance : Nat) : Bool :=
  if p = 0 then 0 < a else tolerance * p < (if p ≤ a then a - p else p - a) * 1000

/-- m_min after a latch (R72). -/
def latchMin (old : Option Nat) (m : Nat) : Option Nat :=
  match old with
  | none => some m
  | some v => some (min v m)

/-- m_max after a latch (R72). -/
def latchMax (old : Option Nat) (m : Nat) : Option Nat :=
  match old with
  | none => some m
  | some v => some (max v m)

/-- The final state of a frame ended from EXPOSING, from its engine flags after the dose check (R79). -/
def finalState (f : EngineFlags) : CellState :=
  if f.limit || f.corrSat || f.dose then .exposedFault else .exposed

/-! ### Average and correction (spec/05) -/

/-- The mean of n conversions, rounded half up (R111). -/
def averageOf (sum n : Nat) : Nat := (sum + n / 2) / n

/-- q of R122. -/
def correctionQuotient (mRef m : Nat) : Nat := (Config.unity * mRef + m / 2) / m

/-- c and the saturation indicator from m_avg (R122). -/
def correctionOf (p : Profile) (m : Nat) : Nat × Bool :=
  if p.correctionOn = false then (Config.unity, false)
  else if m = 0 then (Config.cMax, true)
  else
    (max Config.cMin (min Config.cMax (correctionQuotient p.mRef m)),
      correctionQuotient p.mRef m < Config.cMin || Config.cMax < correctionQuotient p.mRef m)

/-- An alert state after a compared value (R117, R118). -/
def alertAfter (mode : AlertMode) (old excursion : Bool) : Bool :=
  match mode with
  | .transparent => excursion
  | .latched => old || excursion

end Sys2Proof.Machine
end

