-- ==== Sys2Proof/Machine/Bytes.lean ====
section
/-!
DEFINITION. Frame bytes: byte order, the 32-bit check, the record header, and the byte forms of the reports whose
layout the spec gives (R184 to R187, R206).
-/

namespace Sys2Proof.Machine

/-- A number of several bytes, most significant byte first (R184). -/
def bytesToNat (bs : List Byte) : Nat := bs.foldl (fun acc b => acc * 256 + b.toNat) 0

/-- `n` bytes of `v`, most significant byte first (R184). -/
def natToBytes : Nat → Nat → List Byte
  | 0, _ => []
  | n + 1, v => BitVec.ofNat 8 (v / 256 ^ n) :: natToBytes n v

/-- The number in the `n` bytes at offset `at` (R206). -/
def numberAt (bs : List Byte) (offset n : Nat) : Nat := bytesToNat ((bs.drop offset).take n)

/-- The byte at an offset, as a number; 0 beyond the end. -/
def byteAt (bs : List Byte) (offset : Nat) : Nat := numberAt bs offset 1

/-! ### The check (R184) -/

/-- The generator polynomial of R184 with the term x^31 in bit 0 (log 5). -/
def crcPoly : BitVec 32 := 0xEDB88320#32

/-- One bit enters the check register (R184). -/
def crcBit (r : BitVec 32) : BitVec 32 :=
  if r.getLsbD 0 then (r >>> 1) ^^^ crcPoly else r >>> 1

/-- `n` bits enter the register. -/
def crcBits : Nat → BitVec 32 → BitVec 32
  | 0, r => r
  | n + 1, r => crcBits n (crcBit r)

/-- One byte enters the register, least significant bit first (R184). -/
def crcByte (r : BitVec 32) (b : Byte) : BitVec 32 := crcBits 8 (r ^^^ b.setWidth 32)

/-- The check value: register preset to all ones, final content complemented (R184). -/
def crcOf (bs : List Byte) : BitVec 32 := ~~~(bs.foldl crcByte (BitVec.allOnes 32))

/-- The four check bytes, least significant byte first (R184). -/
def checkBytes (bs : List Byte) : List Byte :=
  [(crcOf bs).setWidth 8, (crcOf bs >>> 8).setWidth 8, (crcOf bs >>> 16).setWidth 8, (crcOf bs >>> 24).setWidth 8]

/-! ### Frames -/

/-- The 8-byte header (R206): kind, flags, payload length, tag. -/
def headerBytes (kind flags : Byte) (length : Nat) (tag : Tag) : List Byte :=
  kind :: flags :: natToBytes 2 length ++ natToBytes 4 tag.toNat

/-- The frame bytes: header, payload, check over both (R184). -/
def frameBytes (kind flags : Byte) (tag : Tag) (payload : List Byte) : List Byte :=
  headerBytes kind flags payload.length tag ++ payload
    ++ checkBytes (headerBytes kind flags payload.length tag ++ payload)

/-- The kind code of a record (kinds table). -/
def RecordKind.code : RecordKind → Byte
  | .fopen => 1
  | .fclose => 2
  | .phead => 3
  | .pband => 4
  | .pend => 5
  | .twrite => 6
  | .tread => 7
  | .qstat => 8
  | .abort => 9
  | .reset => 10

/-- The record kind of a code (kinds table; "Any other code, report codes included, arriving inbound fails"). -/
def recordKindOf (code : Nat) : Option RecordKind :=
  match code with
  | 1 => some .fopen
  | 2 => some .fclose
  | 3 => some .phead
  | 4 => some .pband
  | 5 => some .pend
  | 6 => some .twrite
  | 7 => some .tread
  | 8 => some .qstat
  | 9 => some .abort
  | 10 => some .reset
  | _ => none

/-- b, the frame bytes received, counted up to 16,397 (R185). Bytes past the 16,396th are never looked at: test 1 drops
such a frame, and its LINKERR reads the first eight. -/
def countedBytes (bytes : List Byte) : Nat := min bytes.length Config.frameByteCap

/-- The check of a frame of at least four bytes matches (R184). -/
def checkMatches (bytes : List Byte) : Bool :=
  checkBytes (bytes.take (bytes.length - 4)) == bytes.drop (bytes.length - 4)

/-- The record a frame of passed bytes carries (R184, R206). -/
def recordOf (kind : RecordKind) (bytes : List Byte) : Record :=
  { kind := kind
    flags := BitVec.ofNat 8 (byteAt bytes 1)
    tag := BitVec.ofNat 32 (numberAt bytes 4 4)
    payload := (bytes.drop 8).take (bytes.length - 12) }

/-- Tests 1 to 4 of R185: the code of the drop, or the record that passes. -/
def judgeBytes (bytes : List Byte) : LinkErrorCode ⊕ Record :=
  if countedBytes bytes > Config.frameByteCap - 1 then .inl .recordLength
  else if bytes.length < 12 ∨ checkMatches bytes = false then .inl .linkCrc
  else if numberAt bytes 2 2 > Config.payloadMax ∨ numberAt bytes 2 2 ≠ bytes.length - 12 then .inl .recordLength
  else
    match recordKindOf (byteAt bytes 0) with
    | none => .inl .unknownKind
    | some k => .inr (recordOf k bytes)

/-- A LINKERR for these frame bytes (R186). -/
def linkErrOf (code : LinkErrorCode) (bytes : List Byte) : LinkErrReport :=
  { code := code
    kindByte := byteAt bytes 0
    lengthField := if bytes.length < 4 then 0 else numberAt bytes 2 2
    b := countedBytes bytes
    tag := if bytes.length < 8 then 0 else BitVec.ofNat 32 (numberAt bytes 4 4) }

/-- Bit 0 of a record's flags: RESET's FULL option, QSTAT's clear option (R206). -/
def Record.optionBit (r : Record) : Bool := r.flags.getLsbD 0

/-! ### Reports -/

/-- A report's header tag (Reports, their tags and their classes). -/
def Report.tag : Report → Tag
  | .hello _ => 0
  | .credit => 0
  | .fopened r => r.tag
  | .frame _ => 0
  | .fclosed r => r.tag
  | .tdone r => r.tag
  | .tdata r => r.tag
  | .stat r => r.tag
  | .limitAlert _ => 0
  | .transportAlert _ => 0
  | .refused r => r.tag
  | .linkErr r => r.tag
  | .aborted r => r.tag
  | .resetDone r => r.tag

/-- A report's kind code (kinds table). -/
def Report.code : Report → Byte
  | .hello _ => 129
  | .credit => 130
  | .fopened _ => 131
  | .frame _ => 132
  | .fclosed _ => 133
  | .tdone _ => 134
  | .tdata _ => 135
  | .stat _ => 136
  | .limitAlert _ => 137
  | .transportAlert _ => 137
  | .refused _ => 138
  | .linkErr _ => 139
  | .aborted _ => 140
  | .resetDone _ => 141

/-- HELLO and RESETDONE carry the re-base grant (R189, R190). -/
def Report.isGrant : Report → Bool
  | .hello _ | .resetDone _ => true
  | .credit | .fopened _ | .frame _ | .fclosed _ | .tdone _ | .tdata _ | .stat _ | .limitAlert _
  | .transportAlert _ | .refused _ | .linkErr _ | .aborted _ => false

/-- A report's flags byte: credit count in bits 0 to 4, re-base mark in bit 5 (R206). -/
def Sending.flagsByte (t : Sending) : Byte := BitVec.ofNat 8 (t.credit + if t.rebase then 32 else 0)

/-- The cell kind's code in a FRAME (R206). -/
def CellKind.code : CellKind → Nat
  | .title => 0
  | .data => 1
  | .index => 2

/-- A final state's code in a FRAME (R206: "3 EXPOSED, 4 EXPOSED_FAULT, 5 VOID"). A FRAME reports no other state. -/
def CellState.code : CellState → Nat
  | .free => 0
  | .assigned => 1
  | .exposing => 2
  | .exposed => 3
  | .exposedFault => 4
  | .void => 5

/-- The flag bits of a FRAME (R206): bit 0 CROPPED up to bit 10 DOSE. -/
def FrameFlags.word (f : FrameFlags) : Nat :=
  f.intake.cropped.toNat + 2 * f.intake.short.toNat + 4 * f.intake.long.toNat + 8 * f.intake.gap.toNat
    + 16 * f.intake.dup.toNat + 32 * f.intake.noEnd.toNat + 64 * f.engine.held.toNat
    + 128 * f.engine.pulseClamp.toNat + 256 * f.engine.corrSat.toNat + 512 * f.engine.limit.toNat
    + 1024 * f.engine.dose.toNat

/-- A FRAME's payload (R206). -/
def framePayload (r : FrameReport) : List Byte :=
  natToBytes 4 r.seq.toNat ++ natToBytes 2 r.cell ++ natToBytes 1 r.kind.code ++ natToBytes 1 r.final.code
    ++ natToBytes 2 r.flags.word ++ natToBytes 1 r.holdCount ++ natToBytes 1 (r.key.getD []).length
    ++ natToBytes 2 r.linesExposed ++ natToBytes 2 r.linesFlooded ++ natToBytes 5 r.a ++ natToBytes 5 r.p
    ++ natToBytes 2 r.mMin ++ natToBytes 2 r.mMax ++ r.key.getD []

/-- The payload of a report whose layout the spec gives: FRAME (R206) and CREDIT (R189). The spec gives no layout for
the other reports' payloads (log 20). -/
def Report.payload? : Report → Option (List Byte)
  | .frame r => some (framePayload r)
  | .credit => some []
  | .hello _ | .fopened _ | .fclosed _ | .tdone _ | .tdata _ | .stat _ | .limitAlert _ | .transportAlert _
  | .refused _ | .linkErr _ | .aborted _ | .resetDone _ => none

/-- The frame bytes on the wire of a report in transmission, where the spec gives the payload's layout. -/
def Sending.bytes? (t : Sending) : Option (List Byte) :=
  t.report.payload?.map (frameBytes t.report.code t.flagsByte t.report.tag)

end Sys2Proof.Machine
end

