-- ==== Sys2Proof/WellFormed.lean ====
section
/-!
DEFINITION. Which command terms describe an event that can come about. Operand widths are in the operand types;
the one relation left is R137's: a received motion line is ended by a single line feed.
-/

namespace Sys2Proof

/-- The line feed that ends every message on the motion port (R137: "code 10"). -/
def lineFeed : Byte := 10

/-- The characters form one line (R137): the last is a line feed and no earlier one is. -/
def isOneLine (line : List Byte) : Bool :=
  line.getLast? == some lineFeed && line.dropLast.all (fun b => b != lineFeed)

/-- A command term that an event can give. -/
def Instr.wellFormed : Instr → Bool
  | .receivedLineIgnored line => isOneLine line
  | .powerOn | .signalDetectRising | .alignment | .lossOfSignal _ | .frameReceived _
  | .frameEndedByStartDelimiter _ | .transmissionEnds | .reportPlaced | .fopen | .fclose | .phead
  | .pheadTake | .pband | .bandLine | .pend | .topMarginLine | .fillLine | .twrite | .tread | .qstat
  | .abort _ | .resetFull _ | .resetSoft _ | .done _ | .fault _ _ | .motionTimeout | .conversion _
  | .warmTimerExpiry | .parkTimerExpiry | .lineEnd | .floodLineEnd | .holdTimerExpiry
  | .lastCharacterSent => true

end Sys2Proof
end

