-- ==== Sys2Proof/Machine/Operands.lean ====
section
/-!
DEFINITION. Reading the fields the commands work on: record payloads (R187, R206), table contents with their field
checks (R159 to R165), pixels (R46), and the lines of the motion port (R137, R139).
-/

namespace Sys2Proof.Machine

/-! ### FOPEN, PHEAD, PBAND, TREAD (R187, R206) -/

/-- FOPEN's fields: profile number and fiche sequence number. -/
structure FopenFields where
  profile : Nat
  seq : FicheSeq
deriving DecidableEq, Repr

/-- FOPEN's payload is 5 bytes (R187). -/
def readFopen (p : List Byte) : Option FopenFields :=
  if p.length = 5 then some { profile := byteAt p 0, seq := BitVec.ofNat 32 (numberAt p 1 4) } else none

/-- A PHEAD's target (R40). -/
inductive Target where
  | next
  | explicit (cell : Nat)
deriving DecidableEq, Repr

/-- PHEAD's fields after its field checks. -/
structure PheadFields where
  target : Target
  w : Nat
  h : Nat
  depth : Nat
  d : Nat
  key : Option (List Byte)
deriving DecidableEq, Repr

/-- A PHEAD's target by its target kind byte; the cell number is ignored for NEXT (R206). -/
def readTarget (p : List Byte) : Option Target :=
  if byteAt p 0 = 0 then some .next
  else if byteAt p 0 = 1 then some (.explicit (numberAt p 4 2))
  else none

/-- A key of 0 bytes means no key (R40). -/
def keyOf (bs : List Byte) : Option (List Byte) := if bs = [] then none else some bs

/-- The field checks of R40 on a PHEAD that carries these numbers. -/
def pheadFieldsOk (w h depth d keyLength : Nat) : Bool :=
  (1 ≤ w && w ≤ 4096) && (1 ≤ h && h ≤ 6144) && (depth == 1 || depth == 8) && (d == 1 || d == 2)
    && keyLength ≤ 24 && !(d == 2 && (w < 2 || h < 2))

/-- PHEAD's payload (R206) under the checks of R40 and R187; `none` is the refusal BAD_FIELD. -/
def readPhead (p : List Byte) : Option PheadFields :=
  if p.length < 10 ∨ p.length ≠ 10 + byteAt p 3 then none
  else if pheadFieldsOk (numberAt p 6 2) (numberAt p 8 2) (byteAt p 1) (byteAt p 2) (byteAt p 3) then
    (readTarget p).map fun t =>
      { target := t, w := numberAt p 6 2, h := numberAt p 8 2, depth := byteAt p 1, d := byteAt p 2,
        key := keyOf (p.drop 10) }
  else none

/-- Bytes per source line (R45): W at depth 8, ceil(W/8) at depth 1. -/
def bytesPerLine (w depth : Nat) : Nat := if depth = 8 then w else (w + 7) / 8

/-- The checks of R45 and R187 on a PBAND's payload for a page of this width and depth: the band, or the refusal. -/
def readBand (w depth : Nat) (p : List Byte) : RefusalCode ⊕ Band :=
  if p.length < 3 then .inl .badField
  else if byteAt p 2 = 0 ∨ byteAt p 2 > 16 then .inl .badField
  else if p.length - 3 ≠ byteAt p 2 * bytesPerLine w depth then .inl .bandLength
  else .inr { first := numberAt p 0 2, count := byteAt p 2, dealt := 0 }

/-- Pixel `j` of a depth 1 line: bit 7 − (j mod 8) of byte floor(j/8); ink is gray 0 and paper gray 255 (R46). -/
def pixelGray (line : List Byte) (j : Nat) : Nat :=
  if (line.getD (j / 8) 0).getLsbD (7 - j % 8) then 0 else 255

/-- A source line's bytes expanded to W gray values (R46). -/
def expandLine (w depth : Nat) (line : List Byte) : List Nat :=
  if depth = 8 then line.map BitVec.toNat else (List.range w).map (pixelGray line)

/-- The gray values of the band's line `i` (R187: the lines stand in order after the 3 leading bytes). -/
def bandLineGrays (w depth : Nat) (p : List Byte) (i : Nat) : List Nat :=
  expandLine w depth (((p.drop 3).drop (i * bytesPerLine w depth)).take (bytesPerLine w depth))

/-! ### Table contents (R159 to R167, R187) -/

/-- The table a selector byte names (R187). -/
def readSelector (n : Nat) : Option TableSel :=
  match n with
  | 0 => some .layout
  | 1 => some .curve
  | 2 => some .profile
  | 3 => some .unit
  | _ => none

/-- How many entries a table has (R158). -/
def TableSel.size : TableSel → Nat
  | .layout => 8
  | .curve => 4
  | .profile => 8
  | .unit => 1

/-- Check 1 of R167 and R171: the table and entry number that the first two payload bytes name. -/
def readEntry (p : List Byte) : Option (TableSel × Nat) :=
  if p.length < 2 then none
  else
    match readSelector (byteAt p 0) with
    | none => none
    | some t => if byteAt p 1 < t.size then some (t, byteAt p 1) else none

/-- A YES or NO field (R187: "YES as 1 and NO as 0"). -/
def readYesNo (n : Nat) : Option Bool := if n = 1 then some true else if n = 0 then some false else none

/-- A field of two named values by its position in the list (R187). -/
def readNamed {α : Type} (first second : α) (n : Nat) : Option α :=
  if n = 0 then some first else if n = 1 then some second else none

/-- The data cells of a layout (R160). -/
def Layout.dataCells (l : Layout) : Nat :=
  l.rows * l.columns - (if l.titleRow then l.columns else 0) - l.indexCells

/-- The ranges of R159 and the conditions of R160. -/
def Layout.ok (l : Layout) : Bool :=
  (1 ≤ l.rows && l.rows ≤ 16) && (1 ≤ l.columns && l.columns ≤ 32) && (64 ≤ l.wc && l.wc ≤ 2048)
    && (64 ≤ l.hc && l.hc ≤ 3072) && l.originX ≤ 65535 && l.originY ≤ 65535
    && (1 ≤ l.pitchX && l.pitchX ≤ 65535) && (1 ≤ l.pitchY && l.pitchY ≤ 65535) && l.indexCells ≤ 4
    && l.rows * l.columns ≤ 420 && l.originX + (l.columns - 1) * l.pitchX ≤ 65535
    && l.originY + (l.rows - 1) * l.pitchY ≤ 65535 && (!l.titleRow || 2 ≤ l.rows) && l.indexCells ≤ l.columns
    && 1 ≤ l.dataCells

/-- A layout's contents, 17 bytes in the order of R159's table (R187); `none` where the length or a coded field
fails. -/
def readLayout (c : List Byte) : Option Layout :=
  if c.length ≠ 17 then none
  else
    match readYesNo (byteAt c 14), readNamed FillOrder.row FillOrder.column (byteAt c 16) with
    | some title, some order =>
      some { rows := byteAt c 0, columns := byteAt c 1, wc := numberAt c 2 2, hc := numberAt c 4 2,
             originX := numberAt c 6 2, originY := numberAt c 8 2, pitchX := numberAt c 10 2,
             pitchY := numberAt c 12 2, titleRow := title, indexCells := byteAt c 15, fillOrder := order }
    | _, _ => none

/-- The ranges of R163 and the conditions of R164. -/
def Profile.ok (p : Profile) : Bool :=
  p.layout ≤ 7 && p.curve ≤ 3 && (256 ≤ p.linePeriod && p.linePeriod ≤ 8191)
    && (1 ≤ p.pulseMax && p.pulseMax + 32 ≤ p.linePeriod) && p.voidPulse ≤ p.pulseMax && p.fillGray ≤ 255
    && p.holdLimit ≤ 1000 && (1 ≤ p.mRef && p.mRef ≤ 65535) && p.overLimit ≤ 65535 && p.underLimit ≤ 65535
    && (p.averaging == 1 || p.averaging == 4 || p.averaging == 16 || p.averaging == 64)
    && (1 ≤ p.doseTolerance && p.doseTolerance ≤ 500) && (1 ≤ p.warmCount && p.warmCount ≤ 255)
    && p.maxVoids ≤ 15 && p.underLimit < p.overLimit

/-- A profile's contents, 27 bytes in the order of R163's table (R187); `none` where the length or a coded field
fails. -/
def readProfile (c : List Byte) : Option Profile :=
  if c.length ≠ 27 then none
  else
    match readNamed Alignment.centre Alignment.topLeft (byteAt c 9), readNamed true false (byteAt c 14),
        readNamed CompareBasis.raw CompareBasis.averaged (byteAt c 20),
        readNamed AlertMode.latched AlertMode.transparent (byteAt c 21), readYesNo (byteAt c 26) with
    | some align, some corr, some basis, some mode, some idx =>
      some { layout := byteAt c 0, curve := byteAt c 1, linePeriod := numberAt c 2 2, pulseMax := numberAt c 4 2,
             voidPulse := numberAt c 6 2, fillGray := byteAt c 8, alignment := align, holdLimit := numberAt c 10 2,
             mRef := numberAt c 12 2, correctionOn := corr, overLimit := numberAt c 15 2,
             underLimit := numberAt c 17 2, averaging := byteAt c 19, basis := basis, alertMode := mode,
             doseTolerance := numberAt c 22 2, warmCount := byteAt c 24, maxVoids := byteAt c 25,
             indexRequired := idx }
    | _, _, _, _, _ => none

/-- A quarter of a curve: its offset and its 64 values (R162). -/
structure QuarterWrite where
  offset : Nat
  values : List Nat
deriving DecidableEq, Repr

/-- The offsets a curve's quarters begin at (R161). -/
def isQuarterOffset (n : Nat) : Bool := n == 0 || n == 64 || n == 128 || n == 192

/-- `n` two-byte values from the front of the bytes. -/
def readValues : Nat → List Byte → List Nat
  | 0, _ => []
  | n + 1, bs => numberAt bs 0 2 :: readValues n (bs.drop 2)

/-- A curve's contents, 130 bytes: offset, count, values (R162, R187); `none` is the refusal BAD_FIELD. -/
def readQuarter (c : List Byte) : Option QuarterWrite :=
  if c.length = 130 ∧ isQuarterOffset (byteAt c 0) = true ∧ byteAt c 1 = 64
      ∧ (readValues 64 (c.drop 2)).all (fun v => v ≤ 8191) = true then
    some { offset := byteAt c 0, values := readValues 64 (c.drop 2) }
  else none

/-- The unit settings' contents, 2 bytes (R165, R187); `none` is the refusal BAD_FIELD. -/
def readUnit (c : List Byte) : Option UnitSettings :=
  if c.length = 2 then (readYesNo (byteAt c 1)).map fun y => { parkDelay := byteAt c 0, alertReports := y }
  else none

/-! ### The motion port (R137 to R139) -/

/-- A decimal digit's character. -/
def digitByte (d : Nat) : Byte := BitVec.ofNat 8 (48 + d)

/-- The decimal digits of a number below 10^`fuel`, without leading zeros (R137). -/
def decimalDigits : Nat → Nat → List Byte
  | 0, _ => []
  | fuel + 1, n => if n < 10 then [digitByte n] else decimalDigits fuel (n / 10) ++ [digitByte (n % 10)]

/-- A number as the motion port writes it; no field exceeds 65,535 (R137, R138). -/
def decimal (n : Nat) : List Byte := decimalDigits 5 n

/-- LOAD. -/
def wordLoad : List Byte := [76, 79, 65, 68]
/-- MOVE. -/
def wordMove : List Byte := [77, 79, 86, 69]
/-- EJECT. -/
def wordEject : List Byte := [69, 74, 69, 67, 84]
/-- HOME. -/
def wordHome : List Byte := [72, 79, 77, 69]
/-- ACCEPT. -/
def wordAccept : List Byte := [65, 67, 67, 69, 80, 84]
/-- REJECT. -/
def wordReject : List Byte := [82, 69, 74, 69, 67, 84]
/-- DONE. -/
def wordDone : List Byte := [68, 79, 78, 69]
/-- FAULT. -/
def wordFault : List Byte := [70, 65, 85, 76, 84]
/-- NO_STOCK. -/
def wordNoStock : List Byte := [78, 79, 95, 83, 84, 79, 67, 75]
/-- JAM. -/
def wordJam : List Byte := [74, 65, 77]
/-- LIMIT. -/
def wordLimit : List Byte := [76, 73, 77, 73, 84]

/-- The space that separates fields (R137). -/
def space : Byte := 32

/-- The line of characters that sends a command (R137): command word, command number, then R138's fields. -/
def commandLine (f : InFlight) : List Byte :=
  match f.motion with
  | .load => wordLoad ++ space :: decimal f.number.toNat ++ [lineFeed]
  | .move _ x y =>
    wordMove ++ space :: decimal f.number.toNat ++ space :: decimal x ++ space :: decimal y ++ [lineFeed]
  | .eject .accept => wordEject ++ space :: decimal f.number.toNat ++ space :: wordAccept ++ [lineFeed]
  | .eject .reject => wordEject ++ space :: decimal f.number.toNat ++ space :: wordReject ++ [lineFeed]
  | .home => wordHome ++ space :: decimal f.number.toNat ++ [lineFeed]

/-- A line's fields: the runs between single spaces. -/
def splitFields : List Byte → List (List Byte)
  | [] => [[]]
  | b :: bs =>
    if b = space then [] :: splitFields bs
    else
      match splitFields bs with
      | [] => [[b]]
      | f :: fs => (b :: f) :: fs

/-- The value of a run of decimal digits; `none` where a character is no digit. -/
def digitsValue : Nat → List Byte → Option Nat
  | acc, [] => some acc
  | acc, b :: bs =>
    if 48 ≤ b.toNat ∧ b.toNat ≤ 57 then digitsValue (acc * 10 + (b.toNat - 48)) bs else none

/-- A command number, 0 to 255 in decimal without leading zeros (R137, R139). -/
def readNumber (bs : List Byte) : Option CommandNumber :=
  match bs with
  | [] => none
  | b :: rest =>
    if b = 48 ∧ rest ≠ [] then none
    else
      match digitsValue 0 (b :: rest) with
      | some n => if n ≤ 255 then some (BitVec.ofNat 8 n) else none
      | none => none

/-- A fault code as written (R137). -/
def readReplyCode (bs : List Byte) : Option ReplyCode :=
  if bs = wordNoStock then some .noStock
  else if bs = wordJam then some .jam
  else if bs = wordLimit then some .limit
  else none

/-- A readable reply (R139). -/
inductive Reply where
  | done (number : CommandNumber)
  | fault (number : CommandNumber) (code : ReplyCode)
deriving DecidableEq, Repr

/-- The fields of a received line as a reply (R139); `none` is "not readable", a line too long among them. -/
def readReply (line : List Byte) : Option Reply :=
  if isOneLine line = false ∨ line.length > Config.motionLineMax then none
  else
    match splitFields line.dropLast with
    | [word, number] =>
      if word = wordDone then (readNumber number).map Reply.done else none
    | [word, number, code] =>
      if word = wordFault then
        match readNumber number, readReplyCode code with
        | some n, some c => some (.fault n c)
        | _, _ => none
      else none
    | _ => none

end Sys2Proof.Machine
end

