-- ==== Sys2Proof/Machine/Ops.lean ====
section
/-!
DEFINITION. The operations the commands share, first part: the updates of each block, the feed link's queues, slots and
credits, reading the tables, the frame map, and the motion requests.
-/

namespace Sys2Proof.Machine

/-! ### Updates, one per block -/

/-- `s` with another link interface. -/
def State.setLink (s : State) (l : Link) : State := { s with link := l }
/-- `s` with another job controller. -/
def State.setJob (s : State) (j : Job) : State := { s with job := j }
/-- `s` with another table store. -/
def State.setTables (s : State) (t : Tables) : State := { s with tables := t }
/-- `s` with another page intake. -/
def State.setIntake (s : State) (i : Intake) : State := { s with intake := i }
/-- `s` with another exposure engine. -/
def State.setEngine (s : State) (e : Engine) : State := { s with engine := e }
/-- `s` with another head monitor. -/
def State.setHead (s : State) (h : Head) : State := { s with head := h }
/-- `s` with another transport controller. -/
def State.setTransport (s : State) (t : Transport) : State := { s with transport := t }
/-- `s` with another fiche record. -/
def State.setFiche (s : State) (f : Fiche) : State := s.setJob { s.job with fiche := some f }

/-! ### Reports (R189, R198 to R202) -/

/-- The link is UP: the only state in which a report is composed or transmitted (R181, R202). -/
def State.linkUp (s : State) : Bool := s.link.state == .up

/-- A holding slot is empty. -/
def slotFree (s : State) (p : Producer) : Bool := !(s.link.slots.any fun x => x.1 == p)

/-- The report queue has room (R198). -/
def queueRoom (s : State) : Bool := s.link.reports.length < Config.reportQueueSize

/-- A report takes the place at the tail of the report queue (R198). -/
def placeReport (r : Report) (s : State) : State :=
  s.setLink { s.link with reports := s.link.reports ++ [r] }

/-- A kept-class report is composed into its producer's slot (R199): placed at once where the queue holds fewer than
32 and no report waits for a place already; otherwise held, so that a freed place goes to the waiting slot whose report
was composed earliest (log 8). While the link is not UP no report is composed (R202). A producer with an occupied slot
composes nothing: each producer's own rule makes it wait. -/
def composeSlot (p : Producer) (r : Report) (s : State) : State :=
  if s.linkUp && slotFree s p then
    if queueRoom s && s.link.slots.isEmpty then placeReport r s
    else s.setLink { s.link with slots := s.link.slots ++ [(p, r)] }
  else s

/-- A discard-class report (R200): placed where the queue has room, otherwise lost with the overflow indicator set.
While the link is not UP it is not made. -/
def composeDiscard (r : Report) (s : State) : State :=
  if s.linkUp then
    if queueRoom s then placeReport r s else s.setLink { s.link with overflow := true }
  else s

/-- `n` credits are earned back; the counter stops at 16 (R189). -/
def raiseCounter (n : Nat) (s : State) : State :=
  s.setLink { s.link with counter := min Config.creditLimit (s.link.counter + n) }

/-- The head record leaves the inbound queue and its place earns a credit (R188); what page intake kept about that
record goes with it. -/
def removeHead (s : State) : State :=
  raiseCounter 1
    ((s.setLink { s.link with inbound := s.link.inbound.tail }).setIntake
      { s.intake with band := none, pheadChecked := false })

/-- Every queued record is removed without hand-over, each adding 1 to the counter (R192, R193). -/
def flushInbound (s : State) : State :=
  raiseCounter s.link.inbound.length
    ((s.setLink { s.link with inbound := [] }).setIntake { s.intake with band := none, pheadChecked := false })

/-- The head record is refused (R205): REFUSED composed in the owner's slot, the last refusal code set, the record
gone. -/
def refuse (p : Producer) (r : Record) (code : RefusalCode) (s : State) : State :=
  let s1 := composeSlot p (.refused { kind := r.kind, tag := r.tag, code := code }) s
  removeHead (s1.setLink { s1.link with lastRefusal := some code })

/-- A frame is dropped with its LINKERR (R185, R186); `credit` says whether a credit is returned. -/
def dropFrame (e : LinkErrReport) (credit : Bool) (s : State) : State :=
  let t := composeDiscard (.linkErr e) s
  if credit then raiseCounter 1 t else t

/-- A CREDIT is composed where the event that began with counter `c0` raised it from 0 with the report queue empty and
the grant window closed (R189). -/
def creditIfDue (c0 : Nat) (s : State) : State :=
  if s.linkUp && c0 == 0 && 0 < s.link.counter && s.link.reports.isEmpty && !s.link.windowOpen then
    placeReport .credit s
  else s

/-- A transmission begins (R189, R190, R198) where the link is UP, none is under way and a report is queued: the report
leaves the queue and takes the counter; HELLO and RESETDONE take 16 with the re-base mark and close the window. -/
def beginTransmission (s : State) : State :=
  match s.link.inTransmission, s.link.reports with
  | none, r :: rest =>
    if s.linkUp then
      s.setLink { s.link with
        reports := rest
        inTransmission := some
          { report := r, credit := if r.isGrant then Config.creditLimit else s.link.counter, rebase := r.isGrant }
        counter := 0
        windowOpen := s.link.windowOpen && !r.isGrant }
    else s
  | _, _ => s

/-- The link interface's end of every event (log 7): the rise of the counter is judged after the event's reports are
placed, then a transmission begins where none is under way. `s0` is the state before the event. -/
def linkFinish (s0 s : State) : State := beginTransmission (creditIfDue s0.link.counter s)

/-- The end of an event: one that is not due, and a record left waiting at the head, change nothing (log 1, R196);
otherwise the link interface ends the event. -/
def conclude (s : State) (after : Option State) : Host.Outcome State Fault Refusal :=
  match after with
  | none => .next s
  | some t => .next (linkFinish s t)

/-! ### Tables (spec/07) -/

/-- Layout entry n. -/
def Tables.layoutEntry (t : Tables) (n : Nat) : LayoutEntry := t.layouts.getD n { valid := false, fields := Layout.zero }

/-- Curve entry n. -/
def Tables.curveEntry (t : Tables) (n : Nat) : CurveEntry :=
  t.curves.getD n { values := [], written := { q0 := false, q64 := false, q128 := false, q192 := false } }

/-- Profile entry n. -/
def Tables.profileEntry (t : Tables) (n : Nat) : ProfileEntry :=
  t.profiles.getD n { valid := false, fields := Profile.zero }

/-- A curve is valid when its set of written quarters holds all four (R161). -/
def CurveEntry.valid (c : CurveEntry) : Bool := c.written.q0 && c.written.q64 && c.written.q128 && c.written.q192

/-- A profile is openable where it, its layout and its curve are valid (R176). -/
def Tables.openable (t : Tables) (n : Nat) : Bool :=
  (t.profileEntry n).valid && (t.layoutEntry (t.profileEntry n).fields.layout).valid
    && (t.curveEntry (t.profileEntry n).fields.curve).valid

/-- An entry's pin mark (R158, R173). The unit settings have none. -/
def Tables.pinned (t : Tables) (sel : TableSel) (n : Nat) : Bool :=
  match t.pins with
  | none => false
  | some p =>
    match sel with
    | .layout => p.layout == n
    | .curve => p.curve == n
    | .profile => p.profile == n
    | .unit => false

/-- The pinned profile's fields; with no pin, zeros. -/
def State.profile (s : State) : Profile :=
  match s.tables.pins with
  | none => Profile.zero
  | some p => (s.tables.profileEntry p.profile).fields

/-- The pinned layout's fields; with no pin, zeros. -/
def State.layout (s : State) : Layout :=
  match s.tables.pins with
  | none => Layout.zero
  | some p => (s.tables.layoutEntry p.layout).fields

/-- The pinned density curve's values; with no pin, none. -/
def State.curve (s : State) : List Nat :=
  match s.tables.pins with
  | none => []
  | some p => (s.tables.curveEntry p.curve).values

/-- The validity summary HELLO carries (R177). -/
def Tables.summary (t : Tables) : ValiditySummary :=
  { layouts := t.layouts.map LayoutEntry.valid
    curves := t.curves.map fun c => (c.written, c.valid)
    profiles := (List.range t.profiles.length).map fun n => ((t.profileEntry n).valid, t.openable n)
    pins := t.pins }

/-! ### The frame map (spec/01) -/

/-- The kind of cell i of a layout (R2). -/
def cellKind (l : Layout) (i : Nat) : CellKind :=
  if l.titleRow && i < l.columns then .title
  else if l.rows * l.columns - l.indexCells ≤ i then .index
  else .data

/-- An entry as FOPEN builds it (R3). -/
def freshCell (kind : CellKind) : Cell :=
  { kind := kind, state := .free, key := none, flags := { intake := IntakeFlags.none, engine := EngineFlags.none },
    holdCount := 0, a := none, p := none, linesExposed := 0, linesFlooded := 0 }

/-- The frame map FOPEN builds: rows × columns entries in cell-number order (R3). -/
def buildMap (l : Layout) : List Cell := (List.range (l.rows * l.columns)).map fun i => freshCell (cellKind l i)

/-- The cells in a layout's fill order (R5). -/
def fillOrderCells (l : Layout) : List Nat :=
  match l.fillOrder with
  | .row => List.range (l.rows * l.columns)
  | .column => (List.range l.columns).flatMap fun c => (List.range l.rows).map fun r => r * l.columns + c

/-- Cell i of a map is a FREE DATA cell (R5). -/
def isFreeData (map : List Cell) (i : Nat) : Bool :=
  match map[i]? with
  | some c => c.state == .free && c.kind == .data
  | none => false

/-- The cell a PHEAD's target is given, or its refusal (R5, R6). -/
def chooseCell (l : Layout) (map : List Cell) (t : Target) : RefusalCode ⊕ Nat :=
  match t with
  | .next =>
    match (fillOrderCells l).find? (isFreeData map) with
    | some i => .inr i
    | none => .inl .ficheFull
  | .explicit i =>
    match map[i]? with
    | none => .inl .badField
    | some c => if c.state = .free then .inr i else .inl .cellTaken

/-- How many cells are in a state. -/
def countCells (map : List Cell) (st : CellState) : Nat := map.countP fun c => c.state == st

/-- A map's counts by state (R204). -/
def cellCounts (map : List Cell) : CellCounts :=
  { cells := map.length, free := countCells map .free, assigned := countCells map .assigned,
    exposing := countCells map .exposing, exposed := countCells map .exposed,
    exposedFault := countCells map .exposedFault, void := countCells map .void }

/-- Cell i moves from a state it must be in (R4); a request that fails the check leaves the map unchanged. -/
def moveCell (map : List Cell) (i : Nat) (old : CellState) (f : Cell → Cell) : List Cell :=
  match map[i]? with
  | some c => if c.state = old then map.set i (f c) else map
  | none => map

/-- Cell i is in a state. -/
def cellIn (map : List Cell) (i : Nat) (st : CellState) : Bool :=
  match map[i]? with
  | some c => c.state == st
  | none => false

/-- R4's second check: the cell is that of the EXPOSING context, or of the frame the engine keeps after a clearing
(R88). -/
def isExposingCell (s : State) (cell : Nat) : Bool :=
  (s.intake.contexts.head?.map Context.cell == some cell)
    || (match s.engine.exposure with
        | some x => x.carried.isSome && x.cell == cell
        | none => false)

/-- Page intake's request: a FREE cell becomes ASSIGNED with the page's key (R7). -/
def assignCell (cell : Nat) (key : Option (List Byte)) (s : State) : State :=
  match s.job.fiche with
  | none => s
  | some f => s.setFiche { f with map := moveCell f.map cell .free fun c => { c with state := .assigned, key := key } }

/-- The engine's request at frame start (R8). -/
def startCell (cell : Nat) (s : State) : State :=
  match s.job.fiche with
  | none => s
  | some f =>
    if isExposingCell s cell then
      s.setFiche { f with map := moveCell f.map cell .assigned fun c => { c with state := .exposing } }
    else s

/-- A frame's result as the engine hands it over (R9). -/
structure FrameResult where
  final : CellState
  flags : FrameFlags
  holdCount : Nat
  a : Nat
  p : Nat
  linesExposed : Nat
  linesFlooded : Nat
deriving DecidableEq, Repr

/-- An entry with a frame's result written in (R9, R10). -/
def Cell.withResult (c : Cell) (r : FrameResult) : Cell :=
  { c with state := r.final, flags := r.flags, holdCount := r.holdCount, a := some r.a, p := some r.p,
           linesExposed := r.linesExposed, linesFlooded := r.linesFlooded }

/-- A frame's result enters the frame map from the state given (R9: EXPOSING, R10: ASSIGNED), A is added to the fiche
dose and, for VOID, 1 to the void count. -/
def recordResult (cell : Nat) (old : CellState) (r : FrameResult) (s : State) : State :=
  match s.job.fiche with
  | none => s
  | some f =>
    if isExposingCell s cell && cellIn f.map cell old then
      s.setFiche { f with
        map := moveCell f.map cell old fun c => c.withResult r
        dose := f.dose + r.a
        voidCount := f.voidCount + if r.final = .void then 1 else 0 }
    else s

/-! ### Motion requests (spec/06) -/

/-- The card state while a command is in flight (R140). -/
def Motion.card : Motion → CardState
  | .load => .loading
  | .move _ _ _ => .moving
  | .eject _ => .ejecting
  | .home => .homing

/-- A command's word (R137). -/
def Motion.word : Motion → MotionWord
  | .load => .load
  | .move _ _ _ => .move
  | .eject _ => .eject
  | .home => .home

/-- A command's arguments as an ALERT carries them (R145). -/
def Motion.args : Motion → MotionArgs
  | .move _ x y => .position x y
  | .eject st => .stack st
  | .load | .home => .noArgs

/-- A command's timeout in ms (R140). -/
def Motion.timeout : Motion → Nat
  | .load => Config.loadTimeout
  | .move _ _ _ => Config.moveTimeout
  | .eject _ => Config.ejectTimeout
  | .home => Config.homeTimeout

/-- The card state on DONE (R140). -/
def Motion.cardDone : Motion → CardState
  | .load => .loaded
  | .move _ _ _ => .atCell
  | .eject _ => .empty
  | .home => .empty

/-- The card position on DONE (R140, R150). -/
def Motion.positionDone : Motion → Option Nat
  | .move cell _ _ => some cell
  | .load | .eject _ | .home => none

/-- A command may be sent from a card state (R140). -/
def Motion.sendable : Motion → CardState → Bool
  | .load, card => card == .empty
  | .move _ _ _, card => card == .loaded || card == .atCell
  | .eject _, card => card == .loaded || card == .atCell
  | .home, _ => true

/-- Sending a command begins (R138, R140): it takes the next command number, and the motion timer waits for its last
character. -/
def sendMotion (m : Motion) (s : State) : State :=
  s.setTransport { s.transport with
    card := m.card
    inFlight := some { number := s.transport.nextNumber, motion := m }
    timer := none
    nextNumber := s.transport.nextNumber + 1
    position := none }

/-- A request is sent where the card state allows it, otherwise discarded; a discard notice changes nothing (R146,
R149). -/
def sendOrDiscard (m : Motion) (s : State) : State := if m.sendable s.transport.card then sendMotion m s else s

/-- A HOME is in flight or waits in the pending slot (R147). -/
def homeUnderWay (t : Transport) : Bool :=
  (t.inFlight.map InFlight.motion == some .home) || t.pendingReq == some .home

/-- The transport controller takes a request (R146, R147). -/
def requestMotion (m : Motion) (s : State) : State :=
  if m = .home ∧ homeUnderWay s.transport = true then s
  else
    match s.transport.pendingReq with
    | some _ => if m = .home then s.setTransport { s.transport with pendingReq := some m } else s
    | none =>
      match s.transport.inFlight with
      | some _ => s.setTransport { s.transport with pendingReq := some m }
      | none => sendOrDiscard m s

/-- The pending request is taken out of the slot and judged against the card state just entered (R148). -/
def takePending (s : State) : State :=
  match s.transport.pendingReq with
  | none => s
  | some m => sendOrDiscard m (s.setTransport { s.transport with pendingReq := none })

/-- A pending LOAD, MOVE or EJECT is discarded; a pending HOME stays (R143 step 3, R155, R156). -/
def discardPending (s : State) : State :=
  if s.transport.pendingReq = some .home then s else s.setTransport { s.transport with pendingReq := none }

/-- The card is EMPTY with no command in flight and none pending (R25). -/
def transportQuiet (t : Transport) : Bool := t.card == .empty && t.inFlight.isNone && t.pendingReq.isNone

end Sys2Proof.Machine
end

