-- ==== Sys2Proof/Machine/HeadOps.lean ====
section
/-!
DEFINITION. The shared operations of the head monitor (spec/05): excursions and alerts, averages, correction, warm-up,
park, and what the pins do to it.
-/

namespace Sys2Proof.Machine

/-- The emitter bias enable on the head port (R108). -/
def State.emitterBias (s : State) : Bool := s.head.state != .parked

/-- The fiche sequence number a report carries: 0 where no record exists (R1). -/
def State.ficheSeq (s : State) : FicheSeq :=
  match s.job.fiche with
  | some f => f.seq
  | none => 0

/-- A frame is in progress (spec/03: EXPOSING, HOLDING and FLOODING). -/
def EngineState.inFrame : EngineState → Bool
  | .exposing | .holding | .flooding => true
  | .idle | .waitOpen | .moving | .frameEnd => false

/-- The engine takes a limit excursion (R84, R116): LIMIT for a frame in progress, nothing otherwise. -/
def signalExcursion (s : State) : State :=
  match s.engine.exposure with
  | some x =>
    if s.engine.state.inFrame then
      s.setEngine { s.engine with exposure := some { x with flags := { x.flags with limit := true } } }
    else s
  | none => s

/-- An ALERT of one kind where its state changed from CLEAR to ACTIVE and alert reports are enabled (R119); while the
link is DOWN none is made. -/
def limitAlert (kind : AlertKind) (value : Nat) (old new : Bool) (s : State) : State :=
  if !old && new && s.tables.unit.alertReports then
    composeDiscard
      (.limitAlert { kind := kind, value := value, basis := s.profile.basis,
                     limit := match kind with
                       | .overLimit => s.profile.overLimit
                       | .underLimit => s.profile.underLimit
                     headState := s.head.state, seq := s.ficheSeq }) s
  else s

/-- A value is compared against the pinned profile's limits (R115 to R119). -/
def compareValue (v : Nat) (s : State) : State :=
  let isOver := decide (s.profile.overLimit < v)
  let isUnder := decide (v < s.profile.underLimit)
  let over' := alertAfter s.profile.alertMode s.head.overActive isOver
  let under' := alertAfter s.profile.alertMode s.head.underActive isUnder
  let s1 := if isOver || isUnder then signalExcursion s else s
  limitAlert .underLimit v s.head.underActive under'
    (limitAlert .overLimit v s.head.overActive over'
      (s1.setHead { s1.head with overActive := over', underActive := under' }))

/-- Both alert states are set to CLEAR, with no report (R114, R120, R134, R135). -/
def clearAlerts (s : State) : State := s.setHead { s.head with overActive := false, underActive := false }

/-- c and the saturation indicator are computed from the standing m_avg under the pinned profile (R122). -/
def computeCorrection (s : State) : State :=
  s.setHead { s.head with c := (correctionOf s.profile s.head.mAvg).1, sat := (correctionOf s.profile s.head.mAvg).2 }

/-- The head is parked (R109). -/
def parkHead (s : State) : State :=
  s.setHead { s.head with
    state := .parked, mValid := false, sum := 0, count := 0, len := none, c := Config.unity, sat := false,
    warmCounter := 0, warmTimer := none, parkTimer := none }

/-- The head monitor is told that a profile is pinned (R113); the pin marks are already set. -/
def headPinned (s : State) : State :=
  let s1 := clearAlerts (s.setHead { s.head with sum := 0, count := 0, len := none, warmCounter := 0 })
  if s.head.mValid then computeCorrection s1 else s1

/-- The head monitor is told that the pins are released (R114). -/
def headUnpinned (s : State) : State := clearAlerts (s.setHead { s.head with sum := 0, count := 0, len := none })

/-- The job controller asks for READY (R125, R126). -/
def askReady (s : State) : State :=
  match s.head.state with
  | .parked =>
    s.setHead { s.head with
      state := .warming, sum := 0, count := 0, len := none, warmCounter := 0, warmTimer := some Config.warmTimeout }
  | .warming => s
  | .ready => s.setHead { s.head with parkTimer := none }

/-- The park timer starts where the job is IDLE and the head READY, at the park delay as it stands; a delay of 0 leaves
it stopped (R130). -/
def startPark (s : State) : State :=
  if s.job.state = .idle ∧ s.head.state = .ready ∧ 0 < s.tables.unit.parkDelay then
    s.setHead { s.head with parkTimer := some (s.tables.unit.parkDelay * 1000) }
  else s

/-- The length of an average that begins now (R111). -/
def averageLength (s : State) : Nat :=
  if s.tables.pins.isSome then s.profile.averaging
  else if (s.tables.profileEntry 0).valid then (s.tables.profileEntry 0).fields.averaging
  else Config.defaultAverage

/-- The warm counter after a completed average under a pinned profile (R127), and READY where it reaches the warm count
(R128). -/
def updateWarm (s : State) : State :=
  if s.head.state = .warming ∧ s.tables.pins.isSome = true then
    let k := if s.profile.underLimit ≤ s.head.mAvg ∧ s.head.mAvg ≤ s.profile.overLimit then s.head.warmCounter + 1 else 0
    if s.profile.warmCount ≤ k then
      startPark (s.setHead { s.head with state := .ready, warmCounter := k, warmTimer := none })
    else s.setHead { s.head with warmCounter := k }
  else s

/-- The completion of an average of n conversions (R111, R112). -/
def completeAverage (n : Nat) (s : State) : State :=
  let s1 := s.setHead { s.head with
    mAvg := averageOf s.head.sum n, mValid := true, sum := 0, count := 0, len := none }
  let s2 := if s.tables.pins.isSome && s.profile.basis == .averaged then compareValue s1.head.mAvg s1 else s1
  let s3 := if s.tables.pins.isSome then computeCorrection s2 else s2
  updateWarm s3

/-- A completed conversion (R110, R111) of a WARMING or READY head. Under basis RAW its raw value is compared before the
average that it completes is dealt with; the spec does not order the two (log 34, the model's choice). -/
def takeConversion (raw : Nat) (s : State) : State :=
  let n := s.head.len.getD (averageLength s)
  let s1 := s.setHead { s.head with raw := raw, sum := s.head.sum + raw, count := s.head.count + 1, len := some n }
  let s2 := if s.tables.pins.isSome && s.profile.basis == .raw then compareValue raw s1 else s1
  if s2.head.count = n then completeAverage n s2 else s2

end Sys2Proof.Machine
end

