-- ==== Sys2Proof/Machine/IntakeOps.lean ====
section
/-!
DEFINITION. The shared operations of page intake (spec/02): the current page, its ending, purge and clearing, source lines
through continuity, decimation and placement.
-/

namespace Sys2Proof.Machine

/-- The union of two sets of intake flags. -/
def IntakeFlags.union (a b : IntakeFlags) : IntakeFlags :=
  { cropped := a.cropped || b.cropped, short := a.short || b.short, long := a.long || b.long, gap := a.gap || b.gap,
    dup := a.dup || b.dup, noEnd := a.noEnd || b.noEnd }

/-- Intake flags are added while the context is not voided (R37). -/
def Context.addFlags (c : Context) (f : IntakeFlags) : Context :=
  if c.voided then c else { c with flags := c.flags.union f }

/-- The current page (R35): the page going on without a context, else that of the most recently created context. -/
def Intake.page (i : Intake) : Option Context :=
  match i.orphan with
  | some p => some p
  | none => i.contexts.getLast?

/-- The current page replaced. -/
def Intake.setPage (i : Intake) (c : Context) : Intake :=
  match i.orphan with
  | some _ => { i with orphan := some c }
  | none => { i with contexts := i.contexts.dropLast ++ [c] }

/-- The page's last used source line has arrived (R57: e is not less than d × H'). -/
def Context.allArrived (c : Context) : Bool := c.d * c.hd ≤ c.e

/-- The open page is ended as PEND would end it (R57), with NO_END where it is ended by a PHEAD or an FCLOSE (R41, R58).
A page whose context is gone ends without fill (R56). -/
def endPage (noEnd : Bool) (s : State) : State :=
  match s.intake.orphan with
  | some _ => s.setIntake { s.intake with orphan := none, state := .pageIdle }
  | none =>
    match s.intake.contexts.getLast? with
    | none => s.setIntake { s.intake with state := .pageIdle }
    | some c =>
      let c' := { c.addFlags { IntakeFlags.none with short := !c.allArrived, noEnd := noEnd } with
                    pendingLine := none, ended := true }
      s.setIntake { s.intake.setPage c' with
        state := if c.placed < s.layout.hc then .fillBottom else .pageIdle }

/-- A page open at an FCLOSE is ended at once (R58); in DISCARDING, discarding ends with no flag. -/
def endOpenPage (s : State) : State :=
  match s.intake.state with
  | .fillTop | .taking => endPage true s
  | .discarding => s.setIntake { s.intake with state := .pageIdle }
  | .pageIdle | .fillBottom => s

/-- A band in hand is removed from the queue as consumed, with a credit and no report (R62, R63). DESIGN CHOICE, unsafe
(log 36): a band that has passed R45's examination counts as partly consumed from then on, also while none of its lines
has been consumed; the spec does not say so. -/
def dropBand (s : State) : State := if s.intake.band.isSome then removeHead s else s

/-- The intake state after the EXPOSING context was voided: its page's state decides where that page is the current one
(R61 step 3). -/
def purgedState (i : Intake) : IntakeState :=
  if i.contexts.length = 1 then
    match i.state with
    | .fillTop | .taking => .discarding
    | .fillBottom => .pageIdle
    | .pageIdle => .pageIdle
    | .discarding => .discarding
  else i.state

/-- The purge of the EXPOSING context (R61): its lines leave the store, it is marked voided, and page intake leaves its
state where that context's page is the current page; a band of that page in hand is dropped (R62). -/
def purgeExposing (s : State) : State :=
  match s.intake.contexts with
  | [] => s
  | c :: rest =>
    let s1 := s.setIntake { s.intake with
      store := s.intake.store.filter fun l => l.cell != c.cell
      contexts := { c with voided := true, pendingLine := none } :: rest
      state := purgedState s.intake }
    if rest.isEmpty then dropBand s1 else s1

/-- The engine keeps the EXPOSING context's intake flags in these states (R88). -/
def EngineState.keepsFlags : EngineState → Bool
  | .moving | .exposing | .holding | .flooding | .frameEnd => true
  | .idle | .waitOpen => false

/-- At a clearing the engine copies the EXPOSING context's intake flags into its exposure side (R88). -/
def carryFlags (s : State) : State :=
  match s.engine.exposure, s.intake.contexts with
  | some x, c :: _ =>
    if s.engine.state.keepsFlags && x.carried.isNone then
      s.setEngine { s.engine with exposure := some { x with carried := some c.flags } }
    else s
  | _, _ => s

/-- Page intake is cleared (R63), after the engine has kept what it needs (R88). A checked PHEAD at the head stays. -/
def clearIntake (s : State) : State :=
  let s1 := dropBand (carryFlags s)
  s1.setIntake { s1.intake with state := .pageIdle, contexts := [], orphan := none, store := [] }

/-- A source line's way through decimation: the page afterwards, and the decimated line it completes (R50, R51). -/
def decimateStep (c : Context) (j : Nat) (grays : List Nat) : Context × Option (Nat × List Nat) :=
  if c.d = 2 then
    if j % 2 = 0 then
      if j + 1 = c.h then (c, none) else ({ c with pendingLine := some grays }, none)
    else
      match c.pendingLine with
      | some top => ({ c with pendingLine := none }, some (j / 2, decimateLines top grays))
      | none => (c, none)
  else (c, some (j, grays))

/-- A source line's placed line (R53, R54): none where it is held, skipped, or beyond the last placed line (R55). -/
def placedFrom (l : Layout) (fill : Nat) (c : Context) (out : Option (Nat × List Nat)) : Option (List Nat) :=
  match out with
  | none => none
  | some (k, line) =>
    if placedNumber c.vOff l.hc k = some c.placed ∧ c.placed < l.hc then some (composeLine l.wc fill c.hOff line)
    else none

/-- A line is appended to the line store for the current page, one more placed (R53). -/
def storeLine (c : Context) (grays : List Nat) (i : Intake) : Intake :=
  { i.setPage { c with placed := c.placed + 1 } with
    store := i.store ++ [{ cell := c.cell, lineNo := c.placed, grays := grays }] }

/-- A slot of the line store is free (R59). -/
def storeRoom (s : State) : Bool := s.intake.store.length < Config.storeSize

/-- What BAND_LINE deals with next (R47, R48): a repeated line, a gap line, a line beyond the page, or the line expected
next. -/
inductive BandStep where
  | repeated
  | gapLine
  | beyond
  | expected
deriving DecidableEq, Repr

/-- The judgement of the band's next line against the expected line e (R47, R48). -/
def bandStep (c : Context) (b : Band) : BandStep :=
  if b.first + b.dealt < c.e then .repeated
  else if c.e < b.first + b.dealt ∧ c.e < c.h then .gapLine
  else if c.h ≤ b.first + b.dealt then .beyond
  else .expected

/-- The flag each step adds (R47, R48). -/
def BandStep.flag : BandStep → IntakeFlags
  | .repeated => { IntakeFlags.none with dup := true }
  | .gapLine => { IntakeFlags.none with gap := true }
  | .beyond => { IntakeFlags.none with long := true }
  | .expected => IntakeFlags.none

/-- A gap line leaves the band where it was; every other step deals with one of its lines. -/
def BandStep.advance : BandStep → Nat
  | .gapLine => 0
  | .repeated | .beyond | .expected => 1

/-- The gray values of the step's source line: fill gray for a gap line (R47), the band's line for the expected one;
none for a line that is discarded. -/
def bandStepGrays (st : BandStep) (fill : Nat) (c : Context) (b : Band) (payload : List Byte) : Option (List Nat) :=
  match st with
  | .gapLine => some (List.replicate c.w fill)
  | .expected => some (bandLineGrays c.w c.depth payload b.dealt)
  | .repeated | .beyond => none

/-- The page after the step's source line, and the placed line it gives: a consumed line advances e to its number plus 1
(R48). -/
def bandStepPage (l : Layout) (fill : Nat) (c : Context) (grays : Option (List Nat)) : Context × Option (List Nat) :=
  match grays with
  | none => (c, none)
  | some g =>
    let r := decimateStep c c.e g
    ({ r.1 with e := c.e + 1 }, placedFrom l fill c r.2)

/-- The flags a step adds to the page; a page without a context records none (R56). -/
def stepFlags (i : Intake) (st : BandStep) (c : Context) : Context :=
  if i.orphan.isSome then c else c.addFlags st.flag

/-- The band after a step, and the record's leaving when its last line is dealt with (R49). -/
def advanceBand (b : Band) (n : Nat) (s : State) : State :=
  if b.count ≤ b.dealt + n then removeHead s
  else s.setIntake { s.intake with band := some { b with dealt := b.dealt + n } }

end Sys2Proof.Machine
end

