-- ==== Sys2Proof/Machine/EngineOps.lean ====
section
/-!
DEFINITION. The shared operations of the exposure engine (spec/03, spec/04): admission, frame start, line start, underrun,
void and flood, line end accounting, frame end, release, stop and the answer to a transport fault.
-/

namespace Sys2Proof.Machine

/-! ### Head port -/

/-- The 2,048 pulse widths on the head port (R73, R74): the latched widths while a line is driven, emitters beyond them
dark; zero otherwise. -/
def State.headPortWidths (s : State) : List Nat :=
  match s.engine.driven with
  | some _ => s.engine.widths ++ List.replicate (Config.emitters - s.engine.widths.length) 0
  | none => List.replicate Config.emitters 0

/-! ### Admission, MOVE and release (R65 to R68, R82, R83) -/

/-- The exposure side at admission (R65), with the stage position of R68. -/
def exposureOf (l : Layout) (c : Context) : Exposure :=
  { cell := c.cell, row := c.cell / l.columns, column := c.cell % l.columns,
    x := l.originX + c.cell % l.columns * l.pitchX, y := l.originY + c.cell / l.columns * l.pitchY,
    key := c.key, linesExposed := 0, linesFlooded := 0, a := 0, p := 0, holdCount := 0, flags := EngineFlags.none,
    mMin := none, mMax := none, carried := none }

/-- Opening met, as the fiche record holds it (R66). -/
def openingMet (s : State) : Bool :=
  match s.job.fiche with
  | some f => f.openingMet
  | none => false

/-- The engine requests the MOVE to its context's cell and enters MOVING (R66 to R68). -/
def requestMove (x : Exposure) (s : State) : State :=
  requestMotion (.move x.cell x.x x.y) (s.setEngine { s.engine with state := .moving, exposure := some x })

/-- An IDLE engine admits the EXPOSING context, if there is one (R66). -/
def admitContext (s : State) : State :=
  if s.engine.state = .idle then
    match s.intake.contexts with
    | [] => s
    | c :: _ =>
      let x := exposureOf s.layout c
      if openingMet s then requestMove x s
      else s.setEngine { s.engine with state := .waitOpen, exposure := some x }
  else s

/-- The engine in IDLE with no exposure side, timer stopped, no line driven; latched values stay. -/
def engineToIdle (s : State) : State :=
  s.setEngine { s.engine with
    state := .idle, exposure := none, holdTimer := none, driven := none, stopping := false }

/-- The page of a released context that is still open goes on without it (R56). -/
def orphanAfter (i : Intake) (c : Context) (rest : List Context) : Option Context :=
  if rest.isEmpty && !c.ended && !c.voided then some c else i.orphan

/-- The EXPOSING context is removed at its release, where no clearing has dropped it before (R82, R88). -/
def dropExposing (s : State) : State :=
  match s.engine.exposure, s.intake.contexts with
  | some x, c :: rest =>
    if x.carried.isSome then s
    else s.setIntake { s.intake with contexts := rest, orphan := orphanAfter s.intake c rest }
  | _, _ => s

/-- The release without what follows it: at a RESET FULL and at a stop whose frame map is gone (R82, R86, R91). -/
def releaseOnly (s : State) : State := engineToIdle (dropExposing s)

/-- The release after the FRAME is placed or cleared (R82), and the admission of a promoted context (R83). -/
def release (s : State) : State := admitContext (releaseOnly s)

/-! ### Line start (R71 to R73, R78) -/

/-- The conditions of R71 on head, card and job, with no stop told. -/
def mayDrive (s : State) (x : Exposure) : Bool :=
  s.head.state == .ready && s.transport.card == .atCell && s.transport.position == some x.cell
    && (s.job.state == .opened || s.job.state == .closing || s.job.state == .ending) && !s.engine.stopping

/-- The base widths of a placed line's grays (R73 step 1). -/
def baseWidths (curve : List Nat) (grays : List Nat) : List Nat := grays.map fun g => curve.getD g 0

/-- The engine flags an image line's latch and widths add (R72, R73). -/
def imageFlags (f : EngineFlags) (sat : Bool) (pulseMax c : Nat) (bases : List Nat) : EngineFlags :=
  { f with corrSat := f.corrSat || sat, pulseClamp := f.pulseClamp || bases.any (clampActs pulseMax c) }

/-- An image line start with this line (R72, R73); the line has left the store. -/
def startImage (x : Exposure) (grays : List Nat) (s : State) : State :=
  let bases := baseWidths s.curve grays
  s.setEngine { s.engine with
    state := .exposing
    holdTimer := none
    exposure := some { x with
      flags := imageFlags x.flags s.head.sat s.profile.pulseMax s.head.c bases
      mMin := latchMin x.mMin s.head.mAvg
      mMax := latchMax x.mMax s.head.mAvg }
    m := s.head.mAvg
    c := s.head.c
    sat := s.head.sat
    widths := bases.map (drivenWidth s.profile.pulseMax s.head.c)
    driven := some (.image bases s.profile.mRef) }

/-- A flood line start (R78), where R71's conditions hold: m latched, every emitter of the cell at the void pulse. -/
def startFlood (x : Exposure) (s : State) : State :=
  if mayDrive s x then
    s.setEngine { s.engine with
      exposure := some { x with mMin := latchMin x.mMin s.head.mAvg, mMax := latchMax x.mMax s.head.mAvg }
      m := s.head.mAvg
      widths := List.replicate s.layout.wc s.profile.voidPulse
      driven := some .flood }
  else s

/-- The frame in progress is voided (R77): the context is purged, FLOODING entered, the first flood line due at once. -/
def voidFrame (s : State) : State :=
  let s1 := purgeExposing s
  let s2 := s1.setEngine { s1.engine with state := .flooding, holdTimer := none, driven := none }
  match s2.engine.exposure with
  | some x => startFlood x s2
  | none => s2

/-- An underrun (R75): a hold with its timer, or the void at once where the hold limit is 0. -/
def underrun (x : Exposure) (s : State) : State :=
  if s.profile.holdLimit = 0 then voidFrame s
  else
    s.setEngine { s.engine with
      state := .holding
      holdTimer := some s.profile.holdLimit
      exposure := some { x with flags := { x.flags with held := true }, holdCount := min 255 (x.holdCount + 1) } }

/-- The due line start of an EXPOSING or FLOODING engine that drives no line (R71); while R71's conditions fail it stays
due (log 12). -/
def dueLineStart (s : State) : State :=
  match s.engine.exposure, s.engine.driven with
  | some x, none =>
    if mayDrive s x then
      match s.engine.state with
      | .exposing =>
        match s.intake.store with
        | l :: rest =>
          if l.cell = x.cell then startImage x l.grays (s.setIntake { s.intake with store := rest }) else underrun x s
        | [] => underrun x s
      | .flooding => startFlood x s
      | .idle | .waitOpen | .moving | .holding | .frameEnd => s
    else s
  | _, _ => s

/-- In HOLDING, a line of the EXPOSING context at the store head ends the hold with its line start (R71, R76). -/
def endHold (s : State) : State :=
  match s.engine.exposure, s.intake.store with
  | some x, l :: rest =>
    if s.engine.state = .holding ∧ l.cell = x.cell ∧ mayDrive s x = true then
      startImage x l.grays (s.setIntake { s.intake with store := rest })
    else s
  | _, _ => s

/-- Frame start (R70). -/
def frameStart (s : State) : State :=
  match s.engine.exposure with
  | none => s
  | some x =>
    let s1 := startCell x.cell s
    dueLineStart (s1.setEngine { s1.engine with
      state := .exposing
      holdTimer := none
      driven := none
      exposure := some { x with linesExposed := 0, linesFlooded := 0, a := 0, p := 0, holdCount := 0,
                                flags := EngineFlags.none, mMin := none, mMax := none } })

/-! ### Frame end (R79 to R83) -/

/-- The intake flags a frame's result takes: those carried where present, otherwise the context's own (R80, R86). -/
def resultIntakeFlags (s : State) (x : Exposure) : IntakeFlags :=
  match x.carried with
  | some f => f
  | none =>
    match s.intake.contexts with
    | c :: _ => c.flags
    | [] => IntakeFlags.none

/-- A frame's result (R80, R86). -/
def resultOf (s : State) (x : Exposure) (final : CellState) (ef : EngineFlags) : FrameResult :=
  { final := final, flags := { intake := resultIntakeFlags s x, engine := ef }, holdCount := x.holdCount, a := x.a,
    p := x.p, linesExposed := x.linesExposed, linesFlooded := x.linesFlooded }

/-- The kind of a cell in the frame map. -/
def kindInMap (s : State) (cell : Nat) : CellKind :=
  match s.job.fiche with
  | none => .data
  | some f =>
    match f.map[cell]? with
    | some c => c.kind
    | none => .data

/-- The FRAME report of a result (R81). -/
def frameReport (s : State) (x : Exposure) (r : FrameResult) : FrameReport :=
  { seq := s.ficheSeq, cell := x.cell, kind := kindInMap s x.cell, final := r.final, flags := r.flags,
    holdCount := r.holdCount, linesExposed := r.linesExposed, linesFlooded := r.linesFlooded, a := r.a, p := r.p,
    mMin := x.mMin.getD 0, mMax := x.mMax.getD 0, key := x.key }

/-- The result is handed over and FRAME composed; the engine keeps the exposure side the result was taken from (with the
flags of the dose check, R101), waits in FRAME_END until the report is placed, and releases at once where it is placed at
once or, the link not being UP, is not composed (R80 to R82, R86). -/
def handOver (old : CellState) (x : Exposure) (r : FrameResult) (s : State) : State :=
  let s1 := recordResult x.cell old r s
  let s2 := composeSlot .engine (.frame (frameReport s1 x r)) s1
  let s3 := s2.setEngine { s2.engine with
    state := .frameEnd, exposure := some x, holdTimer := none, driven := none }
  if slotFree s3 .engine then release s3 else s3

/-- The engine flags at frame end of a frame ended from EXPOSING: the dose check is made (R79, R100, R101). -/
def checkedFlags (x : Exposure) (tolerance : Nat) : EngineFlags :=
  { x.flags with dose := x.flags.dose || doseDisagrees x.a x.p tolerance }

/-- Frame end of a frame ended from EXPOSING (R79). -/
def frameEndExposed (x : Exposure) (s : State) : State :=
  let ef := checkedFlags x s.profile.doseTolerance
  handOver .exposing { x with flags := ef } (resultOf s x (finalState ef) ef) s

/-- Frame end of a frame ended from FLOODING (R79). -/
def frameEndVoid (x : Exposure) (s : State) : State := handOver .exposing x (resultOf s x .void x.flags) s

/-- A frame ended by a stop (R86): VOID as it stands, or nothing recorded where the frame map has been discarded. -/
def frameEndStopped (x : Exposure) (s : State) : State :=
  match s.job.fiche with
  | none => releaseOnly s
  | some _ => frameEndVoid x s

/-! ### Line end (R74, R78, R94 to R97) -/

/-- An image line's accounting (R74 steps 1 and 2, R94, R95). -/
def accountImage (e : Engine) (bases : List Nat) (mRef : Nat) (x : Exposure) : Exposure :=
  { x with a := x.a + lineDose e.widths.sum e.m, p := x.p + lineDose bases.sum mRef,
           linesExposed := x.linesExposed + 1 }

/-- A flood line's accounting (R78, R96). -/
def accountFlood (e : Engine) (x : Exposure) : Exposure :=
  { x with a := x.a + lineDose e.widths.sum e.m, linesFlooded := x.linesFlooded + 1 }

/-- The cell's last line has been exposed or flooded (R74, R78). -/
def frameFull (l : Layout) (x : Exposure) : Bool := x.linesExposed + x.linesFlooded == l.hc

/-- The line end of the driven image line (R74, R85). -/
def imageLineEnd (x : Exposure) (bases : List Nat) (mRef : Nat) (s : State) : State :=
  let x' := accountImage s.engine bases mRef x
  let s1 := s.setEngine { s.engine with exposure := some x', driven := none }
  if s.engine.stopping then frameEndStopped x' s1
  else if frameFull s.layout x' then frameEndExposed x' s1
  else dueLineStart s1

/-- The line end of the driven flood line (R78, R85). -/
def floodLineEnd (x : Exposure) (s : State) : State :=
  let x' := accountFlood s.engine x
  let s1 := s.setEngine { s.engine with exposure := some x', driven := none }
  if s.engine.stopping then frameEndStopped x' s1
  else if frameFull s.layout x' then frameEndVoid x' s1
  else dueLineStart s1

/-! ### Stop and transport fault (R85, R89, R90) -/

/-- The job controller tells the engine to stop (R85). A line being driven completes first. -/
def stopEngine (s : State) : State :=
  match s.engine.state, s.engine.exposure with
  | .idle, _ => s
  | .waitOpen, _ => engineToIdle s
  | .moving, _ => engineToIdle s
  | .exposing, some x =>
    if s.engine.driven.isSome then s.setEngine { s.engine with stopping := true } else frameEndStopped x s
  | .flooding, some x =>
    if s.engine.driven.isSome then s.setEngine { s.engine with stopping := true } else frameEndStopped x s
  | .holding, some x => frameEndStopped x (s.setEngine { s.engine with holdTimer := none })
  | .frameEnd, _ => s.setEngine { s.engine with stopping := true }
  | .exposing, none => engineToIdle s
  | .flooding, none => engineToIdle s
  | .holding, none => engineToIdle s

/-- A transport fault reaches the engine (R89): in MOVING the context is voided before its frame start (R90, R10). -/
def engineFault (s : State) : State :=
  match s.engine.state, s.engine.exposure with
  | .waitOpen, _ => engineToIdle s
  | .moving, some x =>
    handOver .assigned x
      { final := .void, flags := { intake := resultIntakeFlags s x, engine := EngineFlags.none }, holdCount := 0, a := 0,
        p := 0, linesExposed := 0, linesFlooded := 0 } s
  | .moving, none => engineToIdle s
  | _, _ => s

/-! ### Appending lines (R53, R60, R76) -/

/-- A line is appended for page `c` and, where the engine is HOLDING for it, its line start is made. -/
def appendLine (c : Context) (grays : List Nat) (s : State) : State :=
  endHold (s.setIntake (storeLine c grays s.intake))

end Sys2Proof.Machine
end

