-- ==== Sys2Proof/Machine/JobOps.lean ====
section
/-!
DEFINITION. The shared operations of the fiche job controller (spec/01): opening, closing step, ending, completion,
transport results, and the tests it makes at the end of an event.
-/

namespace Sys2Proof.Machine

/-! ### Small pieces -/

/-- The job state becomes `j`. -/
def setJobState (j : JobState) (s : State) : State := s.setJob { s.job with state := j }

/-- The outcome is set by the first terminating cause only (R21). -/
def Fiche.withOutcome (f : Fiche) (o : FicheOutcome) : Fiche := { f with outcome := some (f.outcome.getD o) }

/-- A terminating cause is taken (R21). -/
def setOutcome (o : FicheOutcome) (s : State) : State :=
  match s.job.fiche with
  | none => s
  | some f => s.setFiche (f.withOutcome o)

/-- The stack field takes a value (R21). -/
def setStack (st : Stack) (s : State) : State :=
  match s.job.fiche with
  | none => s
  | some f => s.setFiche { f with stack := some st }

/-- The job controller requests an eject and sets the stack to its target (R20, R21, R24). -/
def requestEject (st : EjectStack) (s : State) : State :=
  requestMotion (.eject st)
    (setStack (match st with
      | .accept => .accept
      | .reject => .reject) s)

/-- An outcome of the closing step (R19, R21). -/
def FicheOutcome.ofClosing : FicheOutcome → Bool
  | .complete | .incomplete | .empty => true
  | .aborted | .reset | .linkLost | .noStock | .headNotReady | .transportFault => false

/-- The job is CLOSING and the closing EJECT counts as requested (R18, R22). -/
def closingEjectRequested (s : State) : Bool :=
  s.job.state == .closing && (match s.job.fiche with
    | some f => (f.outcome.map FicheOutcome.ofClosing).getD false
    | none => false)

/-! ### Reports (R30, R31) -/

/-- FOPENED of a fiche (R30). -/
def fopenedOf (f : Fiche) (l : Layout) : FopenedReport :=
  { tag := f.openTag, seq := f.seq, profile := f.profile, layout := f.layout, curve := f.curve, rows := l.rows,
    columns := l.columns, cellCount := f.map.length
    titleCells := f.map.countP fun c => c.kind == .title
    dataCells := f.map.countP fun c => c.kind == .data
    indexCells := f.map.countP fun c => c.kind == .index }

/-- FCLOSED of a fiche (R31). -/
def fclosedOf (f : Fiche) : FclosedReport :=
  { tag := f.closeTag.getD f.openTag, seq := f.seq, outcome := f.outcome, stack := f.stack, faultCode := f.faultCode,
    cellCount := f.map.length, free := countCells f.map .free, assigned := countCells f.map .assigned,
    exposed := countCells f.map .exposed, exposedFault := countCells f.map .exposedFault,
    void := countCells f.map .void, voidCount := f.voidCount, dose := f.dose }

/-- FCLOSED is composed and closed becomes yes; while the link is not UP only the second (R29, R31). -/
def closeFiche (f : Fiche) (s : State) : State :=
  (composeSlot .job (.fclosed (fclosedOf f)) s).setFiche { f with closed := true }

/-! ### The return to IDLE (R12, R25, R174) -/

/-- The pins are released, where any stand (R114, R174). -/
def releasePins (s : State) : State :=
  match s.tables.pins with
  | none => s
  | some _ => headUnpinned (s.setTables { s.tables with pins := none })

/-- The job returns to IDLE: pins released, IDLE entered, the park timer started where the head is READY (R130). -/
def enterIdle (s : State) : State := startPark (setJobState .idle (releasePins s))

/-! ### Ending (R23 to R25) -/

/-- The ending actions on entry to ENDING from OPENING, OPEN or CLOSING (R24 steps 1 and 2); step 3 follows the
engine's stop. -/
def endingActions (s : State) : State :=
  let s1 := setJobState .ending (clearIntake s)
  stopEngine (s1.setJob { s1.job with onStop := some .disposal })

/-- The card's disposal once the engine has stopped (R24 step 3). -/
def disposeCard (s : State) : State :=
  match s.transport.card with
  | .loaded | .atCell | .moving => requestEject .reject s
  | .loading | .ejecting | .empty | .homing | .fault => s

/-- What a RESET FULL does at the engine's stop: tables cleared (R179), head parked (R134), latched values back (R93),
HOME requested (R32). R93 gives m, c and the saturation indicator; that the latched pulse widths are emptied with them is
the model's choice (log 28). -/
def fullResetAtStop (s : State) : State :=
  let s1 := parkHead (s.setTables { Tables.reset with pins := s.tables.pins })
  requestMotion .home
    (s1.setEngine { s1.engine with m := 0, c := Config.unity, sat := false, widths := [] })

/-- The engine's stop signal is taken (R87) once the engine is IDLE. -/
def takeStopSignal (s : State) : State :=
  match s.job.onStop with
  | none => s
  | some why =>
    if s.engine.state = .idle then
      let s1 := s.setJob { s.job with onStop := none }
      match why with
      | .disposal => disposeCard s1
      | .resetFull => fullResetAtStop s1
    else s

/-! ### Opening (R13) -/

/-- The opening conditions hold: card LOADED and head READY under a fiche not yet opened and not ended (R13). -/
def opens (s : State) : Bool :=
  (s.job.state == .opening || s.job.state == .closing) && s.transport.card == .loaded && s.head.state == .ready
    && (match s.job.fiche with
        | some f => !f.openingMet && f.outcome.isNone
        | none => false)

/-- A WAIT_OPEN engine takes the notice that opening met is yes (R67). -/
def noticeOpening (s : State) : State :=
  match s.engine.state, s.engine.exposure with
  | .waitOpen, some x => requestMove x s
  | _, _ => s

/-- On the second of LOAD done and READY, opening met becomes yes and FOPENED falls due (R13). -/
def meetOpening (s : State) : State :=
  match s.job.fiche with
  | none => s
  | some f =>
    if opens s then
      let s1 := s.setFiche { f with openingMet := true }
      noticeOpening (s1.setJob { s1.job with fopenedDue := true })
    else s

/-- A due FOPENED is composed once the job controller's slot is empty, and OPENING becomes OPEN with it (R11, R13). -/
def composeFopened (s : State) : State :=
  match s.job.fiche with
  | none => s
  | some f =>
    if s.job.fopenedDue && slotFree s .job then
      let s1 := composeSlot .job (.fopened (fopenedOf f s.layout)) s
      s1.setJob { s1.job with
        fopenedDue := false
        state := if s1.job.state = .opening then .opened else s1.job.state }
    else s

/-! ### Closing (R18 to R20) -/

/-- A cell counts as exposed (R19). -/
def Cell.isExposed (c : Cell) : Bool := c.state == .exposed || c.state == .exposedFault

/-- The fiche outcome from the frame map, the void count and the pinned profile (R19). -/
def evaluateOutcome (map : List Cell) (voidCount : Nat) (p : Profile) : FicheOutcome :=
  if map.any (fun c => c.kind == .data && c.isExposed) = false then .empty
  else if p.maxVoids < voidCount then .incomplete
  else if p.indexRequired && map.any (fun c => c.kind == .index && !c.isExposed) then .incomplete
  else .complete

/-- The stack the evaluation chooses (R19, R20). -/
def FicheOutcome.closingStack (o : FicheOutcome) : EjectStack := if o = .complete then .accept else .reject

/-- The closing step, where its three conditions hold together and no outcome is set (R18 to R20). -/
def closingStep (s : State) : State :=
  match s.job.fiche with
  | none => s
  | some f =>
    if s.job.state = .closing ∧ f.openingMet = true ∧ f.outcome = none ∧ s.intake.contexts = []
        ∧ s.engine.state = .idle then
      let o := evaluateOutcome f.map f.voidCount s.profile
      requestEject o.closingStack (s.setFiche { f with outcome := some o })
    else s

/-! ### Completion (R14, R20, R25, R27) -/

/-- A NO_STOCK before opening met ends the fiche (R14): page intake cleared, the engine back in IDLE, FCLOSED, IDLE. -/
def completeNoStock (f : Fiche) (s : State) : State :=
  if f.outcome = some .noStock ∧ slotFree s .job = true then enterIdle (closeFiche f (engineToIdle (clearIntake s)))
  else s

/-- The stack is NONE where no eject of the fiche's card was requested (R25). -/
def Fiche.withDefaultStack (f : Fiche) : Fiche := { f with stack := some (f.stack.getD .noStack) }

/-- ENDING completes (R25, R32). -/
def completeEnding (s : State) : State :=
  if s.engine.state = .idle ∧ s.job.onStop = none ∧ transportQuiet s.transport = true then
    match s.job.fiche with
    | none => enterIdle s
    | some f =>
      if f.closed then enterIdle (s.setFiche f.withDefaultStack)
      else if slotFree s .job then enterIdle (closeFiche f.withDefaultStack s)
      else s
  else s

/-- The completions the job controller makes when they fall due and its slot is empty (R11): the closing EJECT done
(R20), a NO_STOCK (R14), the end of ENDING (R25), FCLOSED in FAULTED once the engine is IDLE (R27). -/
def completeJob (s : State) : State :=
  match s.job.state, s.job.fiche with
  | .closing, some f =>
    if closingEjectRequested s then
      if transportQuiet s.transport && slotFree s .job then enterIdle (closeFiche f s) else s
    else completeNoStock f s
  | .opening, some f => completeNoStock f s
  | .ending, _ => completeEnding s
  | .faulted, some f =>
    if !f.closed && s.engine.state == .idle && slotFree s .job then closeFiche f s else s
  | _, _ => s

/-- The tests the job controller makes at the end of an event that may have changed what they read: the stop signal, the
opening, a due FOPENED, the closing step, a completion; then a line start that became possible. -/
def jobTests (s : State) : State :=
  dueLineStart (completeJob (closingStep (composeFopened (meetOpening (takeStopSignal s)))))

/-- What the job controller does when a RESET SOFT or link loss has emptied the slots (R182, R193: each producer proceeds
as if its report had been placed): a FOPENED that waited for its slot, the closing step after the engine's release (R18,
R83), a completion that waited for its slot. -/
def jobProceeds (s : State) : State := completeJob (closingStep (composeFopened s))

/-! ### Notices (R14, R15, R26, R27, R141) -/

/-- The job is OPENING, or CLOSING with opening met still no (R14, R15). -/
def awaitsOpening (s : State) : Bool :=
  s.job.state == .opening || (s.job.state == .closing && !openingMet s)

/-- LOAD NO_STOCK is taken (R14): outcome and stack set, page intake cleared, WAIT_OPEN left; the closing follows in
`completeJob`. In other job states nothing (R15, R32). -/
def takeNoStock (s : State) : State :=
  if awaitsOpening s then
    let s1 := clearIntake (setStack .noStack (setOutcome .noStock s))
    if s1.engine.state = .waitOpen then engineToIdle s1 else s1
  else s

/-- HEAD_NOT_READY is taken before opening met, and disregarded otherwise (R15). -/
def takeHeadNotReady (s : State) : State :=
  if awaitsOpening s then endingActions (setOutcome .headNotReady s) else s

/-- A fiche not yet closed meets a transport fault (R27 step 1). -/
def Fiche.withFault (f : Fiche) (code : TransportCode) : Fiche :=
  if f.closed then f
  else { f.withOutcome .transportFault with faultCode := code, stack := some .noStack }

/-- The fault's record in the fiche (R27 step 1). -/
def recordFault (code : TransportCode) (s : State) : State :=
  match s.job.fiche with
  | none => s
  | some f => s.setFiche (f.withFault code)

/-- No eject is attempted after a fault (R27); a RESET FULL's actions at the stop still wait for it. -/
def keepFullReset (p : Option StopPurpose) : Option StopPurpose := if p = some .resetFull then p else none

/-- The job controller takes a transport fault (R26, R27). -/
def takeTransportFault (code : TransportCode) (s : State) : State :=
  if s.job.state = .idle then s
  else
    let s1 := recordFault code s
    engineFault (clearIntake (s1.setJob { s1.job with state := .faulted, onStop := keepFullReset s1.job.onStop }))

/-- An ALERT of kind TRANSPORT (R145). -/
def transportAlert (code : TransportCode) (f : InFlight) (before : CardState) (s : State) : State :=
  if s.tables.unit.alertReports then
    composeDiscard
      (.transportAlert { code := code, command := f.motion.word, number := f.number, cardBefore := before,
                         arguments := f.motion.args, seq := s.ficheSeq }) s
  else s

/-- The command in flight ends in a transport fault (R143), and a pending HOME is then sent (R148). -/
def transportFault (code : TransportCode) (f : InFlight) (s : State) : State :=
  let s1 := s.setTransport { s.transport with
    timer := none, inFlight := none, faultCode := code, card := .fault, position := none }
  takePending (takeTransportFault code (transportAlert code f s.transport.card (discardPending s1)))

/-- The end of a LOAD in NO_STOCK (R142). -/
def loadNoStock (s : State) : State :=
  takePending (takeNoStock (s.setTransport { s.transport with
    timer := none, inFlight := none, card := .empty, position := none }))

/-- The requester is told that its command is done (R141): the engine of its MOVE (R69), the job controller of a LOAD
that an ENDING waits for (R24) and of a HOME that ends FAULTED (R28); the other results are read by `jobTests`. -/
def tellDone (m : Motion) (s : State) : State :=
  match m with
  | .load =>
    if s.job.state = .ending ∧ s.job.onStop = none ∧ s.job.fiche.isSome = true then requestEject .reject s else s
  | .move cell _ _ =>
    match s.engine.state, s.engine.exposure with
    | .moving, some x => if x.cell = cell then frameStart s else s
    | _, _ => s
  | .eject _ => s
  | .home => if s.job.state = .faulted then enterIdle s else s

/-- The DONE of the command in flight (R140). -/
def motionDone (f : InFlight) (s : State) : State :=
  let s1 := s.setTransport { s.transport with
    timer := none, inFlight := none, card := f.motion.cardDone, position := f.motion.positionDone
    faultCode := if f.motion = .home then .noFault else s.transport.faultCode }
  takePending (tellDone f.motion s1)

/-- A readable DONE is matched against the command in flight (R139); `none` is a stray reply, ignored. -/
def takeDone (n : CommandNumber) (s : State) : Option State :=
  match s.transport.inFlight with
  | some f => if f.number = n then some (jobTests (motionDone f s)) else none
  | none => none

/-- A readable FAULT is matched against the command in flight (R139); a stray one, and NO_STOCK for a MOVE, EJECT or HOME,
are ignored. -/
def takeFault (n : CommandNumber) (code : ReplyCode) (s : State) : Option State :=
  match s.transport.inFlight with
  | some f =>
    if f.number = n then
      match code with
      | .jam => some (jobTests (transportFault .jam f s))
      | .limit => some (jobTests (transportFault .limit f s))
      | .noStock => if f.motion = .load then some (jobTests (loadNoStock s)) else none
    else none
  | none => none

end Sys2Proof.Machine
end

