-- ==== Sys2Proof/Machine/ExposureEvents.lean ====
section
/-!
DEFINITION. The head monitor's conversions and timers, and the exposure engine's line ends and hold timer
(spec/03, spec/05).
-/

namespace Sys2Proof.Machine

/-- A completed conversion of a head that runs conversions (R110); where it made the head READY, the job controller
takes the notice (R128). -/
def acceptConversion (raw : Nat) (s : State) : Option State :=
  if s.head.state = .parked then none
  else
    let s1 := takeConversion raw s
    if s.head.state = .warming ∧ s1.head.state = .ready then some (jobTests s1) else some s1

/-- CONVERSION (R110 to R112). -/
def execConversion (raw : Sample) (s : State) : Host.Outcome State Fault Refusal :=
  conclude s (acceptConversion raw.toNat s)

/-- The warm timer expires while WARMING (R129). -/
def expireWarm (s : State) : Option State :=
  if s.head.state = .warming ∧ s.head.warmTimer.isSome = true then some (jobTests (takeHeadNotReady (parkHead s)))
  else none

/-- WARM_TIMER_EXPIRY (R129). -/
def execWarmTimerExpiry (s : State) : Host.Outcome State Fault Refusal := conclude s (expireWarm s)

/-- PARK_TIMER_EXPIRY (R131). -/
def execParkTimerExpiry (s : State) : Host.Outcome State Fault Refusal :=
  if s.head.parkTimer.isSome then .next (parkHead s) else .next s

/-- The line period of the image line being driven ends (R74). -/
def endImageLine (s : State) : Option State :=
  match s.engine.exposure, s.engine.driven with
  | some x, some (.image bases mRef) => some (jobTests (imageLineEnd x bases mRef s))
  | _, _ => none

/-- LINE_END (R74). -/
def execLineEnd (s : State) : Host.Outcome State Fault Refusal := conclude s (endImageLine s)

/-- The line period of the flood line being driven ends (R78). -/
def endFloodLine (s : State) : Option State :=
  match s.engine.exposure, s.engine.driven with
  | some x, some .flood => some (jobTests (floodLineEnd x s))
  | _, _ => none

/-- FLOOD_LINE_END (R78). -/
def execFloodLineEnd (s : State) : Host.Outcome State Fault Refusal := conclude s (endFloodLine s)

/-- The hold timer expires in HOLDING (R76). -/
def expireHold (s : State) : Option State :=
  if s.engine.state = .holding ∧ s.engine.holdTimer.isSome = true then some (voidFrame s) else none

/-- HOLD_TIMER_EXPIRY (R76, R77). -/
def execHoldTimerExpiry (s : State) : Host.Outcome State Fault Refusal := conclude s (expireHold s)

end Sys2Proof.Machine
end

