-- ==== Sys2Proof/Machine/LinkEvents.lean ====
section
/-!
DEFINITION. Power-on, the link's own events, the priority records and the frames received (spec/08, R32, R33).
-/

namespace Sys2Proof.Machine

/-! ### POWER_ON -/

/-- POWER_ON (R32, R64, R93, R133, R154, R178, R207): every block at its reset values, the waiting commands kept. -/
def execPowerOn (s : State) : Host.Outcome State Fault Refusal := .next { State.reset with pending := s.pending }

/-! ### Link states -/

/-- SIGNAL_DETECT_RISING (R181): DOWN passes to TRAINING. -/
def execSignalDetectRising (s : State) : Host.Outcome State Fault Refusal :=
  if s.link.state = .down then .next (s.setLink { s.link with state := .training }) else .next s

/-- HELLO (R183). -/
def helloOf (s : State) : HelloReport :=
  { partCode := Config.partCode, revision := Config.revision, summary := s.tables.summary
    fiche := s.job.fiche.map fun f => { seq := f.seq, outcome := f.outcome, stack := f.stack }
    jobState := s.job.state }

/-- ALIGNMENT (R181, R183, R190): TRAINING passes to UP, HELLO stands in the report queue and the grant window opens;
HELLO's transmission then begins, no report being in transmission (R198, log 7). -/
def execAlignment (s : State) : Host.Outcome State Fault Refusal :=
  if s.link.state = .training then
    .next (linkFinish s (s.setLink { s.link with
      state := .up, reports := [.hello (helloOf s)], windowOpen := true }))
  else .next s

/-- The link state after a loss of signal: where alignment was lost with signal detect high, DOWN passes to TRAINING at
once (R181). -/
def stateAfterLoss : LossCause → LinkState
  | .signalDetectFell => .down
  | .alignmentLost => .training

/-- Entry to DOWN in the link interface (R182 steps 1 to 5). -/
def linkDown (cause : LossCause) (s : State) : State :=
  (s.setLink { s.link with
    state := stateAfterLoss cause, inbound := [], counter := 0, windowOpen := false, reports := [],
    inTransmission := none, slots := [] }).setIntake { s.intake with band := none, pheadChecked := false }

/-- A cleared engine slot: an engine waiting in FRAME_END proceeds as if its FRAME had been placed: it releases its context
and admits a promoted one (R82, R83, R182, R193; log 10). -/
def engineSlotCleared (s : State) : State := if s.engine.state = .frameEnd then release s else s

/-- A cleared engine slot at a RESET FULL: an engine waiting in FRAME_END releases and enters IDLE (R91), with
no closing step after it (log 35, the model's choice). -/
def engineSlotLost (s : State) : State := if s.engine.state = .frameEnd then releaseOnly s else s

/-- The job controller's response to link loss (R29). -/
def takeLinkLoss (s : State) : State :=
  match s.job.state with
  | .opening | .opened => endingActions (setOutcome .linkLost s)
  | .closing => if closingEjectRequested s then s else endingActions (setOutcome .linkLost s)
  | .ending | .faulted | .idle => s

/-- LOSS_OF_SIGNAL (R181, R182, R29). -/
def execLossOfSignal (cause : LossCause) (s : State) : Host.Outcome State Fault Refusal :=
  if s.link.state = .down then .next s
  else .next (jobTests (takeLinkLoss (jobProceeds (engineSlotCleared (linkDown cause s)))))

/-! ### Transmission and placement -/

/-- TRANSMISSION_ENDS (R198): the next report, if any, begins at once. -/
def execTransmissionEnds (s : State) : Host.Outcome State Fault Refusal :=
  match s.link.inTransmission with
  | none => .next s
  | some _ => .next (linkFinish s (s.setLink { s.link with inTransmission := none }))

/-- What a producer goes on with once its report is placed (R82, R11, R170, R199). -/
def producerProceeds (p : Producer) (s : State) : State :=
  match p with
  | .engine => jobTests (if s.engine.state = .frameEnd then release s else s)
  | .job => jobTests s
  | .tables | .status | .link | .priority => s

/-- The waiting slot composed earliest is given a free place (R199). -/
def placeWaiting (s : State) : Option State :=
  match s.link.slots with
  | [] => none
  | (p, r) :: rest =>
    if s.linkUp && queueRoom s then
      some (producerProceeds p (s.setLink { s.link with slots := rest, reports := s.link.reports ++ [r] }))
    else none

/-- REPORT_PLACED (R199). -/
def execReportPlaced (s : State) : Host.Outcome State Fault Refusal := conclude s (placeWaiting s)

/-! ### Priority records -/

/-- The job controller's result code for an ABORT (R22). -/
def abortResult (s : State) : AbortResult :=
  match s.job.state with
  | .idle => .nothing
  | .opening | .opened => .taken
  | .closing => if closingEjectRequested s then .tooLate else .taken
  | .ending => .already
  | .faulted => .faulted

/-- A taken ABORT: the outcome, the flush, the ending actions, and what the job controller then finds due (R22, R192). -/
def abortTaken (s : State) : State := jobTests (endingActions (flushInbound (setOutcome .aborted s)))

/-- An ABORT acted on (R191, R192); `e` is the LINKERR FLOW of one that finds the priority reply slot occupied. -/
def takeAbort (tag : Tag) (e : LinkErrReport) (s : State) : State :=
  if slotFree s .priority then
    let res := abortResult s
    let s1 := composeSlot .priority (.aborted { tag := tag, result := res, seq := s.ficheSeq }) s
    if res = .taken then abortTaken s1 else s1
  else dropFrame e false s

/-- Whether a RESET ends a fiche (R34): a record, a job OPENING, OPEN, CLOSING or ENDING, and no outcome yet. -/
def endsFiche (s : State) : Bool :=
  (match s.job.state with
    | .opening | .opened | .closing | .ending => true
    | .idle | .faulted => false)
  && (match s.job.fiche with
    | some f => f.outcome.isNone
    | none => false)

/-- RESETDONE's items as they stand at the arrival (R34, R194). -/
def resetDoneOf (opt : ResetOption) (tag : Tag) (s : State) : ResetDoneReport :=
  { tag := tag, option := opt, priorSeq := s.ficheSeq, ficheEnded := endsFiche s }

/-- The link interface's part of a RESET (R193 steps 1 to 5): flush, every slot emptied, RESETDONE alone in the queue, the
grant window open, and for FULL the indicator and the last refusal code cleared. -/
def resetLink (opt : ResetOption) (tag : Tag) (s : State) : State :=
  let s1 := flushInbound s
  s1.setLink { s1.link with
    slots := []
    reports := [.resetDone (resetDoneOf opt tag s)]
    windowOpen := true
    overflow := match opt with
      | .full => false
      | .soft => s.link.overflow
    lastRefusal := match opt with
      | .full => none
      | .soft => s.link.lastRefusal }

/-- The job controller at a RESET SOFT (R33); `again` says that the reset discarded a pending EJECT REJECT. -/
def softResetJob (again : Bool) (s : State) : State :=
  match s.job.state with
  | .idle => s
  | .opening | .opened | .closing => endingActions (setOutcome .reset s)
  | .ending => if again then requestEject .reject s else s
  | .faulted => requestMotion .home (setJobState .ending s)

/-- The blocks at a RESET SOFT (R33, R63, R92, R135, R156, R180). -/
def softResetBlocks (s : State) : State :=
  softResetJob (s.transport.pendingReq == some (.eject .reject)) (clearIntake (discardPending (clearAlerts s)))

/-- A RESET SOFT (R33, R193). -/
def takeSoftReset (tag : Tag) (s : State) : State :=
  jobTests (softResetBlocks (jobProceeds (engineSlotCleared (resetLink .soft tag s))))

/-- The job controller discards the fiche record and enters ENDING (R32 steps 1 and 3). -/
def discardFiche (s : State) : State :=
  s.setJob { state := .ending, fiche := none, fopenedDue := false, onStop := some .resetFull }

/-- The blocks at a RESET FULL (R32, R63, R91, R134, R155, R179); the rest follows at the engine's stop. -/
def fullResetBlocks (s : State) : State :=
  stopEngine (clearIntake (discardFiche (releasePins (discardPending (clearAlerts s)))))

/-- A RESET FULL (R32, R193). An engine whose slot it clears releases and enters IDLE (R91). That no closing step is made
before the fiche is discarded, where this release leaves a CLOSING job without a context (R83, R18), is the model's choice
(log 35). -/
def takeFullReset (tag : Tag) (s : State) : State :=
  jobTests (fullResetBlocks (engineSlotLost (resetLink .full tag s)))

/-- The LINKERR of a dropped ABORT that had no payload: 12 frame bytes (R186, log 4). -/
def abortFlow (tag : Tag) : LinkErrReport := { code := .flow, kindByte := 9, lengthField := 0, b := 12, tag := tag }

/-- ABORT (R191, R192). No record arrives while the link is not UP (R202). -/
def execAbort (tag : Tag) (s : State) : Host.Outcome State Fault Refusal :=
  if s.linkUp then .next (linkFinish s (takeAbort tag (abortFlow tag) s)) else .next s

/-- RESET_FULL (R32, R193). -/
def execResetFull (tag : Tag) (s : State) : Host.Outcome State Fault Refusal :=
  if s.linkUp then .next (linkFinish s (takeFullReset tag s)) else .next s

/-- RESET_SOFT (R33, R193). -/
def execResetSoft (tag : Tag) (s : State) : Host.Outcome State Fault Refusal :=
  if s.linkUp then .next (linkFinish s (takeSoftReset tag s)) else .next s

/-! ### Frames -/

/-- A record that passed tests 1 to 4 of R185: tests 5 to 8. -/
def takeRecord (r : Record) (bytes : List Byte) (s : State) : State :=
  match r.kind with
  | .abort => takeAbort r.tag (linkErrOf .flow bytes) s
  | .reset => if r.optionBit then takeFullReset r.tag s else takeSoftReset r.tag s
  | .fopen | .fclose | .phead | .pband | .pend | .twrite | .tread | .qstat =>
    if s.link.windowOpen then dropFrame (linkErrOf .flow bytes) false s
    else if Config.inboundSize ≤ s.link.inbound.length then dropFrame (linkErrOf .flow bytes) false s
    else s.setLink { s.link with inbound := s.link.inbound ++ [r] }

/-- The frame bytes are judged (R185). -/
def takeFrame (bytes : List Byte) (s : State) : State :=
  match judgeBytes bytes with
  | .inl code => dropFrame (linkErrOf code bytes) true s
  | .inr r => takeRecord r bytes s

/-- FRAME_RECEIVED (R185). Frames are received while the link is UP (R181). -/
def execFrameReceived (bytes : List Byte) (s : State) : Host.Outcome State Fault Refusal :=
  if s.linkUp then .next (linkFinish s (takeFrame bytes s)) else .next s

/-- FRAME_ENDED_BY_START_DELIMITER (R185): dropped as under test 2, with its LINKERR and credit (log 6). -/
def execFrameEndedByStartDelimiter (bytes : List Byte) (s : State) : Host.Outcome State Fault Refusal :=
  if s.linkUp then .next (linkFinish s (dropFrame (linkErrOf .linkCrc bytes) true s)) else .next s

end Sys2Proof.Machine
end

