-- ==== Sys2Proof/Machine/MotionEvents.lean ====
section
/-!
DEFINITION. What arrives on the motion port and the motion timer (R137 to R144).
-/

namespace Sys2Proof.Machine

/-- DONE (R139, R140). -/
def execDone (n : CommandNumber) (s : State) : Host.Outcome State Fault Refusal := conclude s (takeDone n s)

/-- FAULT (R139, R142, R143). -/
def execFault (n : CommandNumber) (code : ReplyCode) (s : State) : Host.Outcome State Fault Refusal :=
  conclude s (takeFault n code s)

/-- The motion timer of the command in flight expires (R144). -/
def takeTimeout (s : State) : Option State :=
  match s.transport.inFlight, s.transport.timer with
  | some f, some _ => some (jobTests (transportFault .timeout f s))
  | _, _ => none

/-- MOTION_TIMEOUT (R144). -/
def execMotionTimeout (s : State) : Host.Outcome State Fault Refusal := conclude s (takeTimeout s)

/-- LAST_CHARACTER_SENT (R138): the motion timer is started at the timeout of the command's kind. -/
def execLastCharacterSent (s : State) : Host.Outcome State Fault Refusal :=
  match s.transport.inFlight, s.transport.timer with
  | some f, none => .next (s.setTransport { s.transport with timer := some f.motion.timeout })
  | _, _ => .next s

/-- A received line is read and matched (R139): ignored unless it is a readable reply, which is then taken as that
reply is (log 13). -/
def takeLine (line : List Byte) (s : State) : Option State :=
  match readReply line with
  | none => none
  | some (.done n) => takeDone n s
  | some (.fault n code) => takeFault n code s

/-- RECEIVED_LINE_IGNORED (R139). -/
def execReceivedLineIgnored (line : List Byte) (s : State) : Host.Outcome State Fault Refusal :=
  conclude s (takeLine line s)

end Sys2Proof.Machine
end

