-- ==== Sys2Proof/Machine/JobRecords.lean ====
section
/-!
DEFINITION. FOPEN and FCLOSE at the head of the inbound queue (R11 to R13, R17, R187).
-/

namespace Sys2Proof.Machine

/-- The record at the head of the inbound queue, where it is of this kind. -/
def headRecord (k : RecordKind) (s : State) : Option Record :=
  match s.link.inbound with
  | [] => none
  | r :: _ => if r.kind = k then some r else none

/-- The judgement of a FOPEN (R11, R187): its fields, or the refusal. -/
def judgeFopen (r : Record) (s : State) : RefusalCode ⊕ FopenFields :=
  match s.job.state with
  | .faulted => .inl .faulted
  | .opening | .opened | .closing | .ending => .inl .busy
  | .idle =>
    match readFopen r.payload with
    | none => .inl .badField
    | some f =>
      if f.profile > 7 then .inl .badField
      else if s.tables.openable f.profile = false then .inl .tableInvalid
      else if s.transport.card ≠ .empty then .inl .busy
      else .inr f

/-- The fiche record and frame map a taken FOPEN creates (R12 steps 1 and 2). -/
def newFiche (r : Record) (f : FopenFields) (t : Tables) : Fiche :=
  let p := (t.profileEntry f.profile).fields
  { seq := f.seq, openTag := r.tag, closeTag := none, profile := f.profile, layout := p.layout, curve := p.curve,
    openingMet := false, outcome := none, stack := none, faultCode := .noFault, dose := 0, voidCount := 0,
    closed := false, map := buildMap (t.layoutEntry p.layout).fields }

/-- The entries a FOPEN under this profile pins (R12 step 3). -/
def pinsOf (n : Nat) (t : Tables) : Pins :=
  { profile := n, layout := (t.profileEntry n).fields.layout, curve := (t.profileEntry n).fields.curve }

/-- A FOPEN is taken (R12): record and map, pins, OPENING with LOAD requested, the pin told to the head monitor, READY
asked for. -/
def takeFopen (r : Record) (f : FopenFields) (s : State) : State :=
  let s1 := s.setJob { state := .opening, fiche := some (newFiche r f s.tables), fopenedDue := false, onStop := none }
  let s2 := s1.setTables { s.tables with pins := some (pinsOf f.profile s.tables) }
  removeHead (askReady (headPinned (requestMotion .load s2)))

/-- The FOPEN at the head is offered (R11): it waits while the job controller's slot is occupied. -/
def offerFopen (s : State) : Option State :=
  match headRecord .fopen s with
  | none => none
  | some r =>
    if slotFree s .job then
      match judgeFopen r s with
      | .inl code => some (refuse .job r code s)
      | .inr f => some (takeFopen r f s)
    else none

/-- FOPEN (R11, R12). -/
def execFopen (s : State) : Host.Outcome State Fault Refusal := conclude s (offerFopen s)

/-- The job state's answer to an FCLOSE (R17); none where it is taken. -/
def fcloseRefusal (j : JobState) : Option RefusalCode :=
  match j with
  | .idle => some .noFiche
  | .closing | .ending => some .busy
  | .faulted => some .faulted
  | .opening | .opened => none

/-- An FCLOSE is taken (R17): close tag, an open page ended, CLOSING. -/
def takeFclose (r : Record) (s : State) : State :=
  let s1 := match s.job.fiche with
    | none => s
    | some f => s.setFiche { f with closeTag := some r.tag }
  jobTests (removeHead (setJobState .closing (endOpenPage s1)))

/-- The FCLOSE at the head is offered (R17). -/
def offerFclose (s : State) : Option State :=
  match headRecord .fclose s with
  | none => none
  | some r =>
    if slotFree s .job then
      match fcloseRefusal s.job.state with
      | some code => some (refuse .job r code s)
      | none => some (takeFclose r s)
    else none

/-- FCLOSE (R17). -/
def execFclose (s : State) : Host.Outcome State Fault Refusal := conclude s (offerFclose s)

end Sys2Proof.Machine
end

