-- ==== Sys2Proof/Machine/PageRecords.lean ====
section
/-!
DEFINITION. Page records at the head of the inbound queue and the lines page intake appends (spec/02).
-/

namespace Sys2Proof.Machine

/-- The job state's refusal of page records (R16); none where they are handed to page intake. -/
def pageRefusal (j : JobState) : Option RefusalCode :=
  match j with
  | .idle => some .noFiche
  | .closing | .ending => some .busy
  | .faulted => some .faulted
  | .opening | .opened => none

/-- Page intake examines no record in FILL_TOP and FILL_BOTTOM (R38). -/
def IntakeState.examines : IntakeState → Bool
  | .pageIdle | .taking | .discarding => true
  | .fillTop | .fillBottom => false

/-- A page record at the head is offered: the link interface's slot is empty and page intake examines records (R196,
R197). -/
def pageOffered (s : State) : Bool := slotFree s .link && s.intake.state.examines

/-! ### PHEAD -/

/-- A PHEAD that passed its checks waits to be taken, its implicit end made (R41). -/
def checkPhead (s : State) : State :=
  let s1 := endOpenPage s
  s1.setIntake { s1.intake with pheadChecked := true }

/-- The PHEAD at the head is examined (R16, R38 to R41). -/
def examinePhead (s : State) : Option State :=
  match headRecord .phead s with
  | none => none
  | some r =>
    if pageOffered s && !s.intake.pheadChecked then
      match pageRefusal s.job.state with
      | some code => some (refuse .link r code s)
      | none =>
        match readPhead r.payload with
        | none => some (refuse .link r .badField s)
        | some _ => some (checkPhead s)
    else none

/-- PHEAD (R40, R41). -/
def execPhead (s : State) : Host.Outcome State Fault Refusal := conclude s (examinePhead s)

/-- The intake side created at the take (R36) with its placement (R43). -/
def newContext (cell : Nat) (f : PheadFields) (l : Layout) (align : Alignment) : Context :=
  { cell := cell, key := f.key, w := f.w, h := f.h, depth := f.depth, d := f.d, wd := f.w / f.d, hd := f.h / f.d,
    hOff := placementOffset (f.w / f.d) l.wc align, vOff := placementOffset (f.h / f.d) l.hc align, e := 0, placed := 0,
    pendingLine := none, ended := false, voided := false
    flags := { IntakeFlags.none with cropped := decide (l.wc < f.w / f.d) || decide (l.hc < f.h / f.d) } }

/-- The page's context is created with the cell it was given (R35, R42), and an IDLE engine admits it where it is
EXPOSING (R66). -/
def takePage (cell : Nat) (f : PheadFields) (s : State) : State :=
  let c := newContext cell f s.layout s.profile.alignment
  let s1 := assignCell cell f.key s
  removeHead (admitContext (s1.setIntake { s1.intake with
    contexts := s1.intake.contexts ++ [c]
    state := if 0 < c.vOff.marginLines then .fillTop else .taking }))

/-- The frame map that cells are chosen from. -/
def State.frameMap (s : State) : List Cell :=
  match s.job.fiche with
  | some f => f.map
  | none => []

/-- The checked PHEAD at the head is taken once page intake is PAGE_IDLE with fewer than two contexts (R41, R42). -/
def takePhead (s : State) : Option State :=
  match headRecord .phead s with
  | none => none
  | some r =>
    if slotFree s .link && s.intake.pheadChecked && s.intake.state == .pageIdle
        && s.intake.contexts.length < Config.contextLimit then
      match pageRefusal s.job.state with
      | some code => some (refuse .link r code s)
      | none =>
        match readPhead r.payload with
        | none => some (refuse .link r .badField s)
        | some f =>
          match chooseCell s.layout s.frameMap f.target with
          | .inl code => some (refuse .link r code s)
          | .inr cell => some (takePage cell f s)
    else none

/-- PHEAD_TAKE (R42). -/
def execPheadTake (s : State) : Host.Outcome State Fault Refusal := conclude s (takePhead s)

/-! ### PBAND -/

/-- A PBAND in TAKING: refused, or begun for consumption (R45). -/
def beginBand (r : Record) (s : State) : State :=
  match s.intake.page with
  | none => refuse .link r .noPage s
  | some c =>
    match readBand c.w c.depth r.payload with
    | .inl code => refuse .link r code s
    | .inr b => s.setIntake { s.intake with band := some b }

/-- The PBAND at the head is examined (R16, R38, R45, R62). -/
def examinePband (s : State) : Option State :=
  match headRecord .pband s with
  | none => none
  | some r =>
    if pageOffered s && s.intake.band.isNone then
      match pageRefusal s.job.state with
      | some code => some (refuse .link r code s)
      | none =>
        match s.intake.state with
        | .taking => some (beginBand r s)
        | .discarding => some (removeHead s)
        | .pageIdle => some (refuse .link r .noPage s)
        | .fillTop | .fillBottom => none
    else none

/-- PBAND (R45). -/
def execPband (s : State) : Host.Outcome State Fault Refusal := conclude s (examinePband s)

/-- One source line of the band in hand is dealt with (R47 to R55). A line that gives a placed line waits for a store
slot (R49). -/
def consumeLine (c : Context) (b : Band) (payload : List Byte) (s : State) : Option State :=
  let st := bandStep c b
  let fill := s.profile.fillGray
  let r := bandStepPage s.layout fill c (bandStepGrays st fill c b payload)
  match r.2 with
  | none => some (advanceBand b st.advance (s.setIntake (s.intake.setPage (stepFlags s.intake st r.1))))
  | some grays =>
    if storeRoom s then some (advanceBand b st.advance (appendLine (stepFlags s.intake st r.1) grays s)) else none

/-- The next source line of the band at the head is consumed (R49). -/
def takeBandLine (s : State) : Option State :=
  match headRecord .pband s, s.intake.band, s.intake.page with
  | some r, some b, some c =>
    if slotFree s .link && s.intake.state == .taking then consumeLine c b r.payload s else none
  | _, _, _ => none

/-- BAND_LINE (R49). -/
def execBandLine (s : State) : Host.Outcome State Fault Refusal := conclude s (takeBandLine s)

/-! ### PEND and fill -/

/-- The PEND at the head is examined (R16, R38, R56, R57, R62). -/
def examinePend (s : State) : Option State :=
  match headRecord .pend s with
  | none => none
  | some r =>
    if pageOffered s then
      match pageRefusal s.job.state with
      | some code => some (refuse .link r code s)
      | none =>
        match s.intake.state with
        | .taking => some (removeHead (endPage false s))
        | .discarding => some (removeHead (s.setIntake { s.intake with state := .pageIdle }))
        | .pageIdle => some (refuse .link r .noPage s)
        | .fillTop | .fillBottom => none
    else none

/-- PEND (R57). -/
def execPend (s : State) : Host.Outcome State Fault Refusal := conclude s (examinePend s)

/-- A line of fill gray for the current page (R44, R54, R57). -/
def appendFill (c : Context) (s : State) : State := appendLine c (List.replicate s.layout.wc s.profile.fillGray) s

/-- TOP_MARGIN_LINE (R44): in FILL_TOP, with a slot free; TAKING once the placed line count equals the top margin. -/
def appendTopMargin (s : State) : State :=
  match s.intake.page with
  | none => s
  | some c =>
    if s.intake.state = .fillTop ∧ storeRoom s = true then
      let s1 := appendFill c s
      if c.vOff.marginLines ≤ c.placed + 1 then s1.setIntake { s1.intake with state := .taking } else s1
    else s

/-- TOP_MARGIN_LINE (R44). -/
def execTopMarginLine (s : State) : Host.Outcome State Fault Refusal := .next (appendTopMargin s)

/-- FILL_LINE (R57): in FILL_BOTTOM, with a slot free; PAGE_IDLE once the placed line count reaches Hc. -/
def appendBottomFill (s : State) : State :=
  match s.intake.page with
  | none => s
  | some c =>
    if s.intake.state = .fillBottom ∧ storeRoom s = true then
      let s1 := appendFill c s
      if s.layout.hc ≤ c.placed + 1 then s1.setIntake { s1.intake with state := .pageIdle } else s1
    else s

/-- FILL_LINE (R57). -/
def execFillLine (s : State) : Host.Outcome State Fault Refusal := .next (appendBottomFill s)

end Sys2Proof.Machine
end

