-- ==== Sys2Proof/Machine/TableRecords.lean ====
section
/-!
DEFINITION. TWRITE, TREAD and QSTAT at the head of the inbound queue (R166 to R172, R203, R204).
-/

namespace Sys2Proof.Machine

/-- A TWRITE or TREAD at the head is offered: the table store's slot is empty and no RESET FULL's clearing is awaited
(R170, R179, R196). -/
def tableOffered (s : State) : Bool := slotFree s .tables && s.job.onStop != some .resetFull

/-! ### TWRITE -/

/-- A set of quarters with the one that begins at this offset added (R162). -/
def Quarters.add (q : Quarters) (offset : Nat) : Quarters :=
  { q0 := q.q0 || offset == 0, q64 := q.q64 || offset == 64, q128 := q.q128 || offset == 128,
    q192 := q.q192 || offset == 192 }

/-- A curve with a quarter written (R162, R168). -/
def CurveEntry.write (c : CurveEntry) (q : QuarterWrite) : CurveEntry :=
  { values := c.values.take q.offset ++ q.values ++ c.values.drop (q.offset + 64), written := c.written.add q.offset }

/-- The table store after a write that passes R167's check 3, and what its TDONE says (R168, R169); `none` is the refusal
BAD_FIELD. -/
def writeEntry (sel : TableSel) (n : Nat) (contents : List Byte) (t : Tables) : Option (Tables × WrittenEntry) :=
  match sel with
  | .layout =>
    match readLayout contents with
    | some l =>
      if l.ok then
        some ({ t with layouts := t.layouts.set n { valid := true, fields := l } }, .layout true l.dataCells)
      else none
    | none => none
  | .curve =>
    match readQuarter contents with
    | some q =>
      let c := (t.curveEntry n).write q
      some ({ t with curves := t.curves.set n c }, .curve q.offset c.written c.valid)
    | none => none
  | .profile =>
    match readProfile contents with
    | some p =>
      if p.ok then
        let t' := { t with profiles := t.profiles.set n { valid := true, fields := p } }
        some (t', .profile true (t'.openable n))
      else none
    | none => none
  | .unit =>
    match readUnit contents with
    | some u => some ({ t with unit := u }, .unit)
    | none => none

/-- The judgement of a TWRITE in R167's order. -/
def judgeTwrite (p : List Byte) (t : Tables) : RefusalCode ⊕ (Tables × WrittenEntry × TableSel × Nat) :=
  match readEntry p with
  | none => .inl .badField
  | some (sel, n) =>
    if t.pinned sel n then .inl .tableInUse
    else
      match writeEntry sel n (p.drop 2) t with
      | none => .inl .badField
      | some (t', w) => .inr (t', w, sel, n)

/-- The TWRITE at the head is offered (R167, R168). -/
def offerTwrite (s : State) : Option State :=
  match headRecord .twrite s with
  | none => none
  | some r =>
    if tableOffered s then
      match judgeTwrite r.payload s.tables with
      | .inl code => some (refuse .tables r code s)
      | .inr (t', w, sel, n) =>
        some (removeHead (composeSlot .tables (.tdone { tag := r.tag, table := sel, entry := n, written := w })
          (s.setTables t')))
    else none

/-- TWRITE (R167). -/
def execTwrite (s : State) : Host.Outcome State Fault Refusal := conclude s (offerTwrite s)

/-! ### TREAD -/

/-- What a TDATA carries (R172). -/
def readContents (sel : TableSel) (n offset : Nat) (t : Tables) : ReadEntry :=
  match sel with
  | .layout => .layout (t.layoutEntry n).valid (t.pinned .layout n) (t.layoutEntry n).fields
  | .curve =>
    .curve (t.curveEntry n).valid (t.pinned .curve n) offset (((t.curveEntry n).values.drop offset).take 64)
      (t.curveEntry n).written
  | .profile => .profile (t.profileEntry n).valid (t.pinned .profile n) (t.profileEntry n).fields
  | .unit => .unit t.unit

/-- A TREAD's table, entry and offset under the checks of R171 and R187; `none` is the refusal BAD_FIELD. -/
def judgeTread (p : List Byte) : Option (TableSel × Nat × Nat) :=
  if p.length ≠ 3 then none
  else
    match readEntry p with
    | none => none
    | some (sel, n) =>
      if sel = .curve ∧ isQuarterOffset (byteAt p 2) = false then none else some (sel, n, byteAt p 2)

/-- The TREAD at the head is offered (R171). -/
def offerTread (s : State) : Option State :=
  match headRecord .tread s with
  | none => none
  | some r =>
    if tableOffered s then
      match judgeTread r.payload with
      | none => some (refuse .tables r .badField s)
      | some (sel, n, offset) =>
        some (removeHead (composeSlot .tables
          (.tdata { tag := r.tag, table := sel, entry := n, contents := readContents sel n offset s.tables }) s))
    else none

/-- TREAD (R171). -/
def execTread (s : State) : Host.Outcome State Fault Refusal := conclude s (offerTread s)

/-! ### QSTAT -/

/-- The counts STAT reports: zero with no fiche record (R1, R204). -/
def statCounts (s : State) : CellCounts :=
  match s.job.fiche with
  | some f => cellCounts f.map
  | none => cellCounts []

/-- The void count STAT reports (R204). -/
def statVoidCount (s : State) : Nat :=
  match s.job.fiche with
  | some f => f.voidCount
  | none => 0

/-- STAT, its values read together (R204). -/
def statOf (tag : Tag) (s : State) : StatReport :=
  { tag := tag, linkState := s.link.state, jobState := s.job.state, engineState := s.engine.state,
    headState := s.head.state, card := s.transport.card, faultCode := s.transport.faultCode, seq := s.ficheSeq,
    counts := statCounts s, voidCount := statVoidCount s, mAvg := s.head.mAvg, mValid := s.head.mValid, c := s.head.c,
    overActive := s.head.overActive, underActive := s.head.underActive, overflow := s.link.overflow,
    lastRefusal := s.link.lastRefusal }

/-- QSTAT's clear option (R203 step 3). -/
def clearOption (r : Record) (s : State) : State :=
  if r.optionBit then
    let s1 := clearAlerts s
    s1.setLink { s1.link with overflow := false }
  else s

/-- The QSTAT at the head is taken when the status responder's slot is empty (R203). -/
def offerQstat (s : State) : Option State :=
  match headRecord .qstat s with
  | none => none
  | some r =>
    if slotFree s .status then some (removeHead (clearOption r (composeSlot .status (.stat (statOf r.tag s)) s)))
    else none

/-- QSTAT (R203). -/
def execQstat (s : State) : Host.Outcome State Fault Refusal := conclude s (offerQstat s)

end Sys2Proof.Machine
end

