-- ==== Sys2Proof/Machine/Dispatch.lean ====
section
/-!
DEFINITION. One arm per command.
-/

namespace Sys2Proof.Machine

def exec (i : Instr) (s : State) : Host.Outcome State Fault Refusal :=
  match i with
  | .powerOn => Sys2Proof.Machine.execPowerOn s
  | .signalDetectRising => Sys2Proof.Machine.execSignalDetectRising s
  | .alignment => Sys2Proof.Machine.execAlignment s
  | .lossOfSignal cause => Sys2Proof.Machine.execLossOfSignal cause s
  | .frameReceived bytes => Sys2Proof.Machine.execFrameReceived bytes s
  | .frameEndedByStartDelimiter bytes => Sys2Proof.Machine.execFrameEndedByStartDelimiter bytes s
  | .transmissionEnds => Sys2Proof.Machine.execTransmissionEnds s
  | .reportPlaced => Sys2Proof.Machine.execReportPlaced s
  | .fopen => Sys2Proof.Machine.execFopen s
  | .fclose => Sys2Proof.Machine.execFclose s
  | .phead => Sys2Proof.Machine.execPhead s
  | .pheadTake => Sys2Proof.Machine.execPheadTake s
  | .pband => Sys2Proof.Machine.execPband s
  | .bandLine => Sys2Proof.Machine.execBandLine s
  | .pend => Sys2Proof.Machine.execPend s
  | .topMarginLine => Sys2Proof.Machine.execTopMarginLine s
  | .fillLine => Sys2Proof.Machine.execFillLine s
  | .twrite => Sys2Proof.Machine.execTwrite s
  | .tread => Sys2Proof.Machine.execTread s
  | .qstat => Sys2Proof.Machine.execQstat s
  | .abort tag => Sys2Proof.Machine.execAbort tag s
  | .resetFull tag => Sys2Proof.Machine.execResetFull tag s
  | .resetSoft tag => Sys2Proof.Machine.execResetSoft tag s
  | .done number => Sys2Proof.Machine.execDone number s
  | .fault number code => Sys2Proof.Machine.execFault number code s
  | .motionTimeout => Sys2Proof.Machine.execMotionTimeout s
  | .conversion raw => Sys2Proof.Machine.execConversion raw s
  | .warmTimerExpiry => Sys2Proof.Machine.execWarmTimerExpiry s
  | .parkTimerExpiry => Sys2Proof.Machine.execParkTimerExpiry s
  | .lineEnd => Sys2Proof.Machine.execLineEnd s
  | .floodLineEnd => Sys2Proof.Machine.execFloodLineEnd s
  | .holdTimerExpiry => Sys2Proof.Machine.execHoldTimerExpiry s
  | .lastCharacterSent => Sys2Proof.Machine.execLastCharacterSent s
  | .receivedLineIgnored line => Sys2Proof.Machine.execReceivedLineIgnored line s

end Sys2Proof.Machine
end

