-- ==== Sys2Proof/Machine/Payloads.lean ====
section
/-!
DEFINITION. The bytes a server sends: record payloads (R187, R206), table contents in the order of their field tables
(R159, R162, R163, R165), and the motion driver's replies (R137, R139). The other direction of Operands.
-/

namespace Sys2Proof.Machine

/-- A YES or NO field (R187). -/
def yesNoByte (b : Bool) : Byte := if b then 1 else 0

/-- A field of two named values: the position in its list (R187). -/
def namedByte (second : Bool) : Byte := if second then 1 else 0

/-- FOPEN's payload (R187). -/
def fopenPayload (profile : Nat) (seq : FicheSeq) : List Byte := natToBytes 1 profile ++ natToBytes 4 seq.toNat

/-- The target kind byte and the cell number of a PHEAD (R206). -/
def targetBytes : Target → Byte × Nat
  | .next => (0, 0)
  | .explicit c => (1, c)

/-- PHEAD's payload (R206). -/
def pheadPayload (f : PheadFields) : List Byte :=
  (targetBytes f.target).1 :: natToBytes 1 f.depth ++ natToBytes 1 f.d ++ natToBytes 1 (f.key.getD []).length
    ++ natToBytes 2 (targetBytes f.target).2 ++ natToBytes 2 f.w ++ natToBytes 2 f.h ++ f.key.getD []

/-- PBAND's payload (R206): the first line, the line count, the line data. -/
def pbandPayload (first count : Nat) (lines : List Byte) : List Byte :=
  natToBytes 2 first ++ natToBytes 1 count ++ lines

/-- A table's selector byte (R187). -/
def TableSel.code : TableSel → Byte
  | .layout => 0
  | .curve => 1
  | .profile => 2
  | .unit => 3

/-- A layout's contents (R159's order). -/
def layoutContents (l : Layout) : List Byte :=
  natToBytes 1 l.rows ++ natToBytes 1 l.columns ++ natToBytes 2 l.wc ++ natToBytes 2 l.hc ++ natToBytes 2 l.originX
    ++ natToBytes 2 l.originY ++ natToBytes 2 l.pitchX ++ natToBytes 2 l.pitchY ++ [yesNoByte l.titleRow]
    ++ natToBytes 1 l.indexCells ++ [namedByte (l.fillOrder == .column)]

/-- A profile's contents (R163's order). -/
def profileContents (p : Profile) : List Byte :=
  natToBytes 1 p.layout ++ natToBytes 1 p.curve ++ natToBytes 2 p.linePeriod ++ natToBytes 2 p.pulseMax
    ++ natToBytes 2 p.voidPulse ++ natToBytes 1 p.fillGray ++ [namedByte (p.alignment == .topLeft)]
    ++ natToBytes 2 p.holdLimit ++ natToBytes 2 p.mRef ++ [namedByte (!p.correctionOn)] ++ natToBytes 2 p.overLimit
    ++ natToBytes 2 p.underLimit ++ natToBytes 1 p.averaging ++ [namedByte (p.basis == .averaged)]
    ++ [namedByte (p.alertMode == .transparent)] ++ natToBytes 2 p.doseTolerance ++ natToBytes 1 p.warmCount
    ++ natToBytes 1 p.maxVoids ++ [yesNoByte p.indexRequired]

/-- A curve's contents (R162): the quarter's offset, the value count 64, the values. -/
def quarterContents (q : QuarterWrite) : List Byte :=
  natToBytes 1 q.offset ++ [64] ++ q.values.flatMap (natToBytes 2)

/-- The unit settings' contents (R165). -/
def unitContents (u : UnitSettings) : List Byte := natToBytes 1 u.parkDelay ++ [yesNoByte u.alertReports]

/-- TWRITE's payload (R187): table selector, entry number, contents. -/
def twritePayload (sel : TableSel) (n : Nat) (contents : List Byte) : List Byte :=
  sel.code :: natToBytes 1 n ++ contents

/-- TREAD's payload (R187): table selector, entry number, quarter offset. -/
def treadPayload (sel : TableSel) (n offset : Nat) : List Byte := sel.code :: natToBytes 1 n ++ natToBytes 1 offset

/-- A fault code as the motion port writes it (R137, R139). -/
def replyCodeWord : ReplyCode → List Byte
  | .noStock => wordNoStock
  | .jam => wordJam
  | .limit => wordLimit

/-- The line of a reply (R137, R139). -/
def replyLine : Reply → List Byte
  | .done n => wordDone ++ space :: decimal n.toNat ++ [lineFeed]
  | .fault n c => wordFault ++ space :: decimal n.toNat ++ space :: replyCodeWord c ++ [lineFeed]

end Sys2Proof.Machine
end

