-- ==== Sys2Proof/Safety.lean ====
section
/-!
DEFINITION. What counts as a good state of the CBF-620, block by block, in the terms the statements use: each is kept by
every step and holds after power-on.
-/

namespace Sys2Proof.Machine

/-! ### Feed link (spec/08) -/

/-- The feed link's bounds and what its state implies: R188 and R198 bound the queues, R189 the counter, R199 gives each
producer one slot; R182 and R202 leave everything empty while the link is not UP; R190 ties the grant window to the one
grant in the report queue, which stands first, and to an empty inbound queue; R41 and R49 tie page intake's notes to the
record at the head. -/
structure LinkOk (s : State) : Prop where
  inbound_le : s.link.inbound.length ≤ Config.inboundSize
  reports_le : s.link.reports.length ≤ Config.reportQueueSize
  counter_le : s.link.counter ≤ Config.creditLimit
  slots_nodup : (s.link.slots.map Prod.fst).Nodup
  not_up : s.link.state ≠ .up → s.link.inbound = [] ∧ s.link.reports = [] ∧ s.link.slots = []
    ∧ s.link.inTransmission = none ∧ s.link.counter = 0 ∧ s.link.windowOpen = false
  window_inbound : s.link.windowOpen = true → s.link.inbound = []
  window_grant : (s.link.reports.map Report.isGrant).head? = some true ↔ s.link.windowOpen = true
  grant_first : ∀ r ∈ s.link.reports.tail, r.isGrant = false
  slots_no_grant : ∀ x ∈ s.link.slots, x.2.isGrant = false
  no_priority : ∀ r ∈ s.link.inbound, r.kind ≠ .abort ∧ r.kind ≠ .reset
  band_head : s.intake.band.isSome = true → s.link.inbound.head?.map Record.kind = some .pband
  phead_head : s.intake.pheadChecked = true → s.link.inbound.head?.map Record.kind = some .phead

/-! ### Tables (spec/07) -/

/-- The tables' form: R158's entry counts, validity with R159 to R165's ranges, zeros where invalid, and pins on an openable
profile and the entries it names (R173, R176). A RESET FULL has released the pins before the clearing it awaits (R174,
R179). -/
structure TablesOk (s : State) : Prop where
  layouts_length : s.tables.layouts.length = 8
  curves_length : s.tables.curves.length = 4
  profiles_length : s.tables.profiles.length = 8
  layouts_ok : ∀ e ∈ s.tables.layouts, if e.valid = true then e.fields.ok = true else e.fields = Layout.zero
  profiles_ok : ∀ e ∈ s.tables.profiles, if e.valid = true then e.fields.ok = true else e.fields = Profile.zero
  curves_ok : ∀ c ∈ s.tables.curves, c.values.length = 256 ∧ ∀ v ∈ c.values, v ≤ 8191
  unit_ok : s.tables.unit.parkDelay ≤ 255
  pins_ok : ∀ p, s.tables.pins = some p → p.profile < 8 ∧ s.tables.openable p.profile = true
    ∧ p.layout = (s.tables.profileEntry p.profile).fields.layout
    ∧ p.curve = (s.tables.profileEntry p.profile).fields.curve
  clearing_unpinned : s.job.onStop = some .resetFull → s.tables.pins = none

/-! ### Head monitor (spec/05) -/

/-- The head monitor's values: R123's range of c, R110 and R111's bounds on samples and averages, R109's values while PARKED,
which timer runs when (R126 to R131), the warm counter below its warm count while WARMING (R127, R128), and both alert
states CLEAR with no profile pinned (R115). -/
structure HeadOk (s : State) : Prop where
  c_range : Config.cMin ≤ s.head.c ∧ s.head.c ≤ Config.cMax
  raw_le : s.head.raw ≤ 65535
  mAvg_le : s.head.mAvg ≤ 65535
  sum_le : s.head.sum ≤ 65535 * s.head.count
  len_none : s.head.len = none → s.head.count = 0
  len_some : ∀ n, s.head.len = some n → n ∈ [1, 4, 16, 64] ∧ s.head.count < n
  parked : s.head.state = .parked → s.head.mValid = false ∧ s.head.sum = 0 ∧ s.head.count = 0
    ∧ s.head.c = Config.unity ∧ s.head.sat = false ∧ s.head.warmCounter = 0
  warm_timer : s.head.warmTimer.isSome = true ↔ s.head.state = .warming
  park_timer : s.head.parkTimer.isSome = true → s.head.state = .ready
  warm_le : s.head.warmCounter ≤ 255
  warm_lt : s.head.state = .warming → s.tables.pins.isSome = true → s.head.warmCounter < s.profile.warmCount
  unpinned_clear : s.tables.pins = none → s.head.overActive = false ∧ s.head.underActive = false

/-! ### Card transport (spec/06) -/

/-- The card state and the command in flight agree (spec/06, Card States), a request waits only behind a command (R146), the
motion timer runs only for one (R138), a position is recorded exactly at a cell (R150), and FAULT has its code (R153). -/
structure TransportOk (s : State) : Prop where
  card_of_flight : ∀ f, s.transport.inFlight = some f → s.transport.card = f.motion.card
  card_at_rest : s.transport.inFlight = none →
    s.transport.card ∈ [CardState.empty, CardState.loaded, CardState.atCell, CardState.fault]
  pending_waits : s.transport.pendingReq.isSome = true → s.transport.inFlight.isSome = true
  timer_flight : s.transport.timer.isSome = true → s.transport.inFlight.isSome = true
  position_at_cell : s.transport.position.isSome = true ↔ s.transport.card = .atCell
  fault_code : s.transport.card = .fault → s.transport.faultCode ≠ .noFault

/-! ### Fiche record (spec/01, spec/04) -/

/-- The cell's frame has ended (R4: a final state). -/
def Cell.isEnded (c : Cell) : Bool := c.isExposed || c.state == .void

/-- The fiche record's accounts: the void count is the number of VOID cells (R9), the fiche dose the sum of the ended frames' A
(R104, R106), A and P are present exactly on ended cells (R103), and only a COMPLETE fiche has stack ACCEPT (R20). -/
structure FicheOk (f : Fiche) : Prop where
  voids : f.voidCount = countCells f.map .void
  dose : f.dose = (f.map.map fun c => c.a.getD 0).sum
  a_present : ∀ c ∈ f.map, c.a.isSome = c.isEnded
  p_present : ∀ c ∈ f.map, c.p.isSome = c.isEnded
  accept_complete : f.stack = some .accept → f.outcome = some .complete

/-- The fiche record, where there is one, is in order. -/
def State.ficheOk (s : State) : Prop := ∀ f, s.job.fiche = some f → FicheOk f

/-- An EJECT ACCEPT is in flight or waits. -/
def acceptUnderWay (t : Transport) : Bool :=
  t.inFlight.map InFlight.motion == some (.eject .accept) || t.pendingReq == some (.eject .accept)

/-- A card is on its way to the accept stack only where the fiche's outcome is COMPLETE (R20). A RESET FULL may have taken the
record away (R32). -/
def AcceptOk (s : State) : Prop :=
  acceptUnderWay s.transport = true → ∀ f, s.job.fiche = some f → f.outcome = some .complete

/-! ### Page intake (spec/02) -/

/-- A page's own bounds: e runs from 0 to H (R48), and a pending half-line is held only with d = 2 (R36). -/
structure PageOk (c : Context) : Prop where
  e_le : c.e ≤ c.h
  pending_d : c.pendingLine.isSome = true → c.d = 2

/-- Page intake's bounds: at most two contexts (R35), at most eight lines (R59), a page whose context neither ended nor was
voided open (R35, R57, R61), and a page without a context only while the page is open and no context exists (R56). -/
structure IntakeOk (s : State) : Prop where
  contexts_le : s.intake.contexts.length ≤ Config.contextLimit
  store_le : s.intake.store.length ≤ Config.storeSize
  pages_ok : ∀ c ∈ s.intake.contexts, PageOk c
  orphan_ok : ∀ c, s.intake.orphan = some c → PageOk c
  page_open : ∀ c, s.intake.contexts.getLast? = some c → c.ended = false → c.voided = false →
    s.intake.state = .taking ∨ s.intake.state = .fillTop
  orphan_alone : s.intake.orphan.isSome = true →
    s.intake.contexts = [] ∧ (s.intake.state = .taking ∨ s.intake.state = .fillTop)

/-! ### Exposure engine (spec/03) -/

/-- The engine's state and what it holds agree: an exposure side in every state but IDLE (R65), the hold timer exactly in
HOLDING (R75, R76), a line driven only in EXPOSING or FLOODING (spec/03, engine states), a hold count within its range. -/
structure EngineOk (s : State) : Prop where
  exposure_state : s.engine.exposure.isSome = true ↔ s.engine.state ≠ .idle
  hold_timer : s.engine.holdTimer.isSome = true ↔ s.engine.state = .holding
  driven_state : s.engine.driven.isSome = true → s.engine.state = .exposing ∨ s.engine.state = .flooding
  hold_count : ∀ x, s.engine.exposure = some x → x.holdCount ≤ 255

/-! ### Doses (spec/04) -/

/-- R99's bound of a line's A_line and P_line: floor(2,048 × 8,191 × 65,535 / 65,536). -/
def lineDoseBound : Nat := 16774912

/-- Pulse widths as a line carries them (R73, R99): at most 2,048, each at most 8,191. -/
def WidthsOk (ws : List Nat) : Prop := ws.length ≤ Config.emitters ∧ ∀ w ∈ ws, w ≤ 8191

/-- A page's decimated lines, behind the left margin of its cell, fit the head (R43, R54). -/
def PageFits (c : Context) : Prop :=
  ∀ ml, c.hOff = .margin ml → ml + (if c.d = 2 then c.w / 2 else c.w) ≤ Config.emitters

/-- The doses' bounds by lines (R99): A by every line, P by the image lines, of the frame in progress and of each cell of the
map; and what a line's dose is made of: the latched widths and m, the base widths and m_ref of the line driven, the stored
lines, the pages they are composed from. -/
structure DosesOk (s : State) : Prop where
  widths_ok : WidthsOk s.engine.widths
  m_le : s.engine.m ≤ 65535
  driven_ok : ∀ bases mRef, s.engine.driven = some (.image bases mRef) → WidthsOk bases ∧ mRef ≤ 65535
  lines_ok : ∀ l ∈ s.intake.store, l.grays.length ≤ Config.emitters
  pages_ok : ∀ c ∈ s.intake.contexts, PageFits c
  orphan_ok : ∀ c, s.intake.orphan = some c → PageFits c
  frame_ok : ∀ x, s.engine.exposure = some x →
    x.a ≤ lineDoseBound * (x.linesExposed + x.linesFlooded) ∧ x.p ≤ lineDoseBound * x.linesExposed
  cells_ok : ∀ f, s.job.fiche = some f → ∀ c ∈ f.map,
    c.a.getD 0 ≤ lineDoseBound * (c.linesExposed + c.linesFlooded) ∧ c.p.getD 0 ≤ lineDoseBound * c.linesExposed

end Sys2Proof.Machine
end

