-- ==== Sys2Proof/Certificates/Slice0/Obligations.lean ====
section
/-!
DEFINITION. The statements about the CBF-620 for the provers. A result statement gives the state an event leaves in full:
what it does not mention is unchanged. `linkFinish` (the event's end in the link interface), `composeSlot`,
`composeDiscard`, `removeHead` and `refuse` have their effects stated in the first group.
-/

open Sys2Proof Sys2Proof.Machine

/-! ### Every step -/

/-- R188, R189, R190, R198, R199, R182, R202: the feed link's bounds and what an absent link implies are kept by every
step. -/
def Obligations.FeedLinkBoundsAreKept : Prop := ∀ s t : State, LinkOk s → step s = .next t → LinkOk t

/-- R158 to R165, R173, R176: the table store's form is kept by every step. -/
def Obligations.TableFormIsKept : Prop := ∀ s t : State, TablesOk s → step s = .next t → TablesOk t

/-- R109 to R111, R115, R123, R126 to R128, R130: the head monitor's values stay in their ranges. -/
def Obligations.HeadRangesAreKept : Prop :=
  ∀ s t : State, TablesOk s → HeadOk s → step s = .next t → HeadOk t

/-- R138, R140, R146, R150, R153: the card state and the command in flight go on agreeing. -/
def Obligations.CardStateAgreesWithCommand : Prop :=
  ∀ s t : State, TransportOk s → step s = .next t → TransportOk t

/-- R9, R20, R103, R104: the fiche record's void count, dose and entries go on agreeing, and its stack is ACCEPT only with
outcome COMPLETE. -/
def Obligations.FicheAccountsAreKept : Prop := ∀ s t : State, s.ficheOk → step s = .next t → t.ficheOk

/-- R20: a card goes to the accept stack only when its fiche outcome is COMPLETE. -/
def Obligations.AcceptOnlyForCompleteFiche : Prop :=
  ∀ s t : State, TransportOk s → AcceptOk s → step s = .next t → AcceptOk t

/-- R35, R48, R56, R59: page intake's bounds are kept by every step. -/
def Obligations.IntakeBoundsAreKept : Prop := ∀ s t : State, IntakeOk s → step s = .next t → IntakeOk t

/-- R65, R75, R76: the exposure engine's state and what it holds go on agreeing. -/
def Obligations.EngineStateAgreesWithExposure : Prop :=
  ∀ s t : State, EngineOk s → step s = .next t → EngineOk t

/-- The state after power-on meets every invariant of this group. -/
def Sys2Proof.Clauses.PowerOnMeetsTheInvariants : Prop :=
  LinkOk State.reset ∧ TablesOk State.reset ∧ HeadOk State.reset ∧ TransportOk State.reset ∧ State.reset.ficheOk
    ∧ AcceptOk State.reset ∧ IntakeOk State.reset ∧ EngineOk State.reset ∧ DosesOk State.reset

/-- R174: between two steps that find the same entries pinned, the pinned profile, layout and curve keep their contents. -/
def Obligations.PinnedEntriesKeepTheirContents : Prop :=
  ∀ (s t : State) (p : Pins), TablesOk s → step s = .next t → s.tables.pins = some p → t.tables.pins = some p →
    t.tables.profileEntry p.profile = s.tables.profileEntry p.profile
      ∧ t.tables.layoutEntry p.layout = s.tables.layoutEntry p.layout
      ∧ t.tables.curveEntry p.curve = s.tables.curveEntry p.curve

/-- R21: the outcome of a fiche is set once; no command but a FOPEN, which opens another fiche, changes a set outcome. -/
def Obligations.OutcomeIsSetOnce : Prop :=
  ∀ (c : Instr) (s t : State) (f g : Fiche) (o : FicheOutcome), c ≠ .fopen → exec c s = .next t →
    s.job.fiche = some f → f.outcome = some o → t.job.fiche = some g → g.outcome = some o

/-- The step takes the command at the front of the queue; on an empty queue the block idles (log 2, the model's choice). -/
def Obligations.StepRunsTheFrontCommand : Prop :=
  (∀ (s : State) (c : Instr) (rest : List Instr), s.pending = c :: rest →
    step s = exec c { s with pending := rest }) ∧
  ∀ s : State, s.pending = [] → step s = .next s

/-- Every command answers a next state in every state, and leaves the waiting commands as they are. That a command whose
event is not due answers a next state as well, and changes nothing, is the model's choice (log 1). -/
def Obligations.EveryCommandAnswersNext : Prop :=
  ∀ (c : Instr) (s : State), ∃ t, exec c s = .next t ∧ t.pending = s.pending

/-! ### What the shared operations of the link do -/

/-- R189, R190, R198: the end of an event; that both fall at the event's end is the model's reading (log 7). A rise of the
counter from 0 with the report queue empty and the grant window closed composes a CREDIT; then, where nothing is in
transmission, the first report of the queue begins: it takes the counter, HELLO and RESETDONE 16 with the re-base mark,
closing the window. -/
def Obligations.EventEndCreditsThenTransmits : Prop :=
  ∀ s0 s : State,
    (s.link.state ≠ .up → linkFinish s0 s = s) ∧
    (s.link.state = .up →
      (∀ x r rest, s.link.inTransmission = some x → s.link.reports = r :: rest → linkFinish s0 s = s) ∧
      (∀ r rest, s.link.inTransmission = none → s.link.reports = r :: rest →
        linkFinish s0 s = { s with link := { s.link with
          reports := rest
          inTransmission := some
            { report := r, credit := if r.isGrant then 16 else s.link.counter, rebase := r.isGrant }
          counter := 0
          windowOpen := s.link.windowOpen && !r.isGrant } }) ∧
      (s.link.reports = [] → s.link.windowOpen = false → s0.link.counter = 0 → 0 < s.link.counter →
        linkFinish s0 s = match s.link.inTransmission with
          | none => { s with link := { s.link with
              inTransmission := some { report := .credit, credit := s.link.counter, rebase := false }
              counter := 0 } }
          | some _ => { s with link := { s.link with reports := [.credit] } }) ∧
      (s.link.reports = [] → (s.link.windowOpen = true ∨ s0.link.counter ≠ 0 ∨ s.link.counter = 0) →
        linkFinish s0 s = s))

/-- R198, R199, R200, R202: where a composed report goes. That a kept-class report composed while another one waits for a
place waits behind it, also where the queue holds fewer than 32, is the model's reading of R199 (log 8). -/
def Sys2Proof.Clauses.ComposedReportsReachTheQueue : Prop :=
  ∀ (p : Producer) (r : Report) (s : State),
    (s.link.state ≠ .up → composeSlot p r s = s ∧ composeDiscard r s = s) ∧
    (s.link.state = .up → s.link.reports.length < 32 →
      composeDiscard r s = { s with link := { s.link with reports := s.link.reports ++ [r] } } ∧
      (s.link.slots = [] →
        composeSlot p r s = { s with link := { s.link with reports := s.link.reports ++ [r] } })) ∧
    (s.link.state = .up → 32 ≤ s.link.reports.length →
      composeDiscard r s = { s with link := { s.link with overflow := true } }) ∧
    (s.link.state = .up → slotFree s p = true → (32 ≤ s.link.reports.length ∨ s.link.slots ≠ []) →
      composeSlot p r s = { s with link := { s.link with slots := s.link.slots ++ [(p, r)] } })

/-- R188, R189, R192, R205: a record's leaving of the inbound queue, a refusal, and a flush. -/
def Sys2Proof.Clauses.RecordsLeaveWithACredit : Prop :=
  ∀ s : State,
    removeHead s = { s with
      link := { s.link with inbound := s.link.inbound.tail, counter := min 16 (s.link.counter + 1) }
      intake := { s.intake with band := none, pheadChecked := false } } ∧
    flushInbound s = { s with
      link := { s.link with inbound := [], counter := min 16 (s.link.counter + s.link.inbound.length) }
      intake := { s.intake with band := none, pheadChecked := false } } ∧
    ∀ (p : Producer) (r : Record) (code : RefusalCode),
      let u := composeSlot p (.refused { kind := r.kind, tag := r.tag, code := code }) s;
      refuse p r code s = removeHead { u with link := { u.link with lastRefusal := some code } }

/-- R188, R189, R192, R198 to R200, R202, R205: where reports go, and how records leave. The turn of a report composed while
another waits is the model's reading (log 8). -/
def Obligations.ReportsAndRecordsMoveThroughTheQueues : Prop :=
  Sys2Proof.Clauses.ComposedReportsReachTheQueue ∧ Sys2Proof.Clauses.RecordsLeaveWithACredit

/-! ### What the statements share -/

/-- R31: the FCLOSED of a fiche. -/
def Sys2Proof.Clauses.fclosed (g : Fiche) : Report :=
  .fclosed
    { tag := g.closeTag.getD g.openTag, seq := g.seq, outcome := g.outcome, stack := g.stack
      faultCode := g.faultCode, cellCount := g.map.length, free := countCells g.map .free
      assigned := countCells g.map .assigned, exposed := countCells g.map .exposed
      exposedFault := countCells g.map .exposedFault, void := countCells g.map .void
      voidCount := g.voidCount, dose := g.dose }

/-- R30: the FOPENED of a fiche under its pinned layout. -/
def Sys2Proof.Clauses.fopened (f : Fiche) (l : Layout) : Report :=
  .fopened
    { tag := f.openTag, seq := f.seq, profile := f.profile, layout := f.layout, curve := f.curve
      rows := l.rows, columns := l.columns, cellCount := f.map.length
      titleCells := f.map.countP fun c => c.kind == .title
      dataCells := f.map.countP fun c => c.kind == .data
      indexCells := f.map.countP fun c => c.kind == .index }

/-- R20, R25, R27: FCLOSED is composed and the fiche closed. -/
def Sys2Proof.Clauses.closedWithFclosed (g : Fiche) (u : State) : State :=
  { composeSlot .job (Sys2Proof.Clauses.fclosed g) u with job := { u.job with fiche := some { g with closed := true } } }

/-- R82: an engine in IDLE; the latched values stay. -/
def Sys2Proof.Clauses.idled (e : Engine) : Engine :=
  { e with state := .idle, exposure := none, holdTimer := none, driven := none, stopping := false }

/-- R138, R140: an EJECT sent from a card at rest on the stage. -/
def Sys2Proof.Clauses.ejectSent (st : EjectStack) (t : Transport) : Transport :=
  { t with
    card := .ejecting, inFlight := some { number := t.nextNumber, motion := .eject st }, timer := none
    nextNumber := t.nextNumber + 1, position := none }

/-- R18 to R20: the closing step with a card at rest on the stage. -/
def Sys2Proof.Clauses.closingMade (f : Fiche) (u : State) : State :=
  let o := evaluateOutcome f.map f.voidCount u.profile;
  { u with
    job := { u.job with fiche := some { f with
      outcome := some o, stack := some (if o = .complete then .accept else .reject) } }
    transport := Sys2Proof.Clauses.ejectSent (if o = .complete then .accept else .reject) u.transport }

/-- R21, R24 step 3: the disposal of the card once the engine has stopped, for a card that is loading, loaded, at a cell or
moving. -/
def Sys2Proof.Clauses.disposed (f : Fiche) (u : State) : State :=
  match u.transport.card with
  | .loaded | .atCell => { u with
      job := { u.job with fiche := some { f with stack := some .reject } }
      transport := Sys2Proof.Clauses.ejectSent .reject u.transport }
  | .moving => { u with
      job := { u.job with fiche := some { f with stack := some .reject } }
      transport := { u.transport with pendingReq := some (.eject .reject) } }
  | .loading | .homing | .empty | .ejecting | .fault => { u with job := { u.job with fiche := some f } }

/-- R9: the fiche record with a frame's result written: the cell's entry, the fiche dose and the void count. -/
def Sys2Proof.Clauses.withResult (f : Fiche) (e : Cell) (x : Exposure) (r : FrameResult) : Fiche :=
  { f with
    map := f.map.set x.cell { e with
      state := r.final, flags := r.flags, holdCount := r.holdCount, a := some r.a, p := some r.p
      linesExposed := r.linesExposed, linesFlooded := r.linesFlooded }
    dose := f.dose + r.a, voidCount := f.voidCount + if r.final = .void then 1 else 0 }

/-- R9, R80, R81: a frame's result recorded, its FRAME composed, and the engine in FRAME_END with the exposure side the
result was taken from. -/
def Sys2Proof.Clauses.frameEnded (f : Fiche) (e : Cell) (x : Exposure) (r : FrameResult) (s : State) : State :=
  { composeSlot .engine (.frame
      { seq := f.seq, cell := x.cell, kind := e.kind, final := r.final, flags := r.flags, holdCount := r.holdCount
        linesExposed := r.linesExposed, linesFlooded := r.linesFlooded, a := r.a, p := r.p
        mMin := x.mMin.getD 0, mMax := x.mMax.getD 0, key := x.key }) s with
    job := { s.job with fiche := some (Sys2Proof.Clauses.withResult f e x r) }
    engine := { s.engine with state := .frameEnd, exposure := some x, holdTimer := none, driven := none } }

/-- R24 step 3, R82, R86, R87: a frame ended by a stop, with the intake flags `k`: recorded VOID as it stands and reported;
the engine is IDLE and the card disposed of, unless the FRAME has to wait for its place. -/
def Sys2Proof.Clauses.stoppedFrame (f : Fiche) (e : Cell) (k : IntakeFlags) (x : Exposure) (s : State) : State :=
  let r : FrameResult :=
    { final := .void, flags := { intake := k, engine := x.flags }, holdCount := x.holdCount, a := x.a, p := x.p
      linesExposed := x.linesExposed, linesFlooded := x.linesFlooded };
  let u := Sys2Proof.Clauses.frameEnded f e x r s;
  if slotFree u .engine = true then
    Sys2Proof.Clauses.disposed (Sys2Proof.Clauses.withResult f e x r) { u with
      job := { u.job with onStop := none }, engine := Sys2Proof.Clauses.idled u.engine }
  else u

/-- R18, R82, R83: the end of the last frame of a CLOSING job: the engine is IDLE without a context and the closing step is
made, unless the FRAME has to wait for its place. -/
def Sys2Proof.Clauses.lastFrameEnded (f : Fiche) (e : Cell) (x : Exposure) (r : FrameResult) (s : State) : State :=
  let u := Sys2Proof.Clauses.frameEnded f e x r s;
  if slotFree u .engine = true then
    Sys2Proof.Clauses.closingMade (Sys2Proof.Clauses.withResult f e x r) { u with
      intake := { u.intake with contexts := [] }, engine := Sys2Proof.Clauses.idled u.engine }
  else u

/-- R32, R93, R134, R147, R155, R179: what a RESET FULL leaves once the engine, now `e`, has stopped: tables cleared, head
parked, latched values back, and HOME sent, waiting behind the command in flight, or joined to a HOME. That the latched
widths are emptied is the model's choice (log 28). -/
def Sys2Proof.Clauses.fullyReset (e : Engine) (s : State) : State :=
  { s with
    job := { state := .ending, fiche := none, fopenedDue := false, onStop := none }
    tables := Tables.reset
    engine := { e with m := 0, c := 16384, sat := false, widths := [] }
    head :=
      { state := .parked, raw := s.head.raw, sum := 0, count := 0, len := none, mAvg := s.head.mAvg
        mValid := false, c := 16384, sat := false, overActive := s.head.overActive
        underActive := s.head.underActive, warmCounter := 0, warmTimer := none, parkTimer := none }
    transport := match s.transport.inFlight with
      | none => { s.transport with
          card := .homing, inFlight := some { number := s.transport.nextNumber, motion := .home }
          timer := none, nextNumber := s.transport.nextNumber + 1, position := none }
      | some k => { s.transport with
          pendingReq := if k.motion = .home ∧ s.transport.pendingReq ≠ some .home then none else some .home } }

/-- R18: the frame in progress is the last of a CLOSING job, its page ended (R17) or voided, and the card rests on the stage. -/
def Sys2Proof.Clauses.lastOfTheFiche (s : State) (x : Exposure) (f : Fiche) (e : Cell) : Prop :=
  s.job.state = .closing ∧ s.job.fiche = some f ∧ f.map[x.cell]? = some e ∧ e.state = .exposing ∧ x.carried = none ∧
    (∃ c, s.intake.contexts = [c] ∧ c.cell = x.cell ∧ (c.ended = true ∨ c.voided = true)) ∧
    (s.transport.card = .loaded ∨ s.transport.card = .atCell) ∧ s.transport.inFlight = none ∧
    s.transport.pendingReq = none

/-- R24, R85, R88: an ENDING job that keeps its fiche record waits for the line in progress, the card at rest. -/
def Sys2Proof.Clauses.stopAwaited (s : State) (x : Exposure) (f : Fiche) (e : Cell) (k : IntakeFlags) : Prop :=
  s.job.state = .ending ∧ s.job.onStop = some .disposal ∧ s.job.fopenedDue = false ∧ s.job.fiche = some f ∧
    f.map[x.cell]? = some e ∧ e.state = .exposing ∧ x.carried = some k ∧ s.intake.contexts = [] ∧
    (s.transport.card = .loaded ∨ s.transport.card = .atCell) ∧ s.transport.inFlight = none ∧
    s.transport.pendingReq = none

/-- R32, R85, R88, R91: a RESET FULL has discarded the fiche record and waits for the line in progress, the card at rest. -/
def Sys2Proof.Clauses.fullResetAwaited (s : State) (x : Exposure) : Prop :=
  s.job.state = .ending ∧ s.job.onStop = some .resetFull ∧ s.job.fopenedDue = false ∧ s.job.fiche = none ∧
    s.tables.pins = none ∧ x.carried.isSome = true ∧ s.transport.inFlight = none ∧ s.transport.pendingReq = none

/-- R18: the job is OPEN, or CLOSING before its closing step, where it behaves as OPEN for the frames still to be exposed;
nothing else is due. -/
def Sys2Proof.Clauses.framesGoOn (s : State) : Prop :=
  s.job.fopenedDue = false ∧ s.job.onStop = none ∧
    (s.job.state = .opened ∨
      (s.job.state = .closing ∧ ∃ f, s.job.fiche = some f ∧ f.openingMet = true ∧ f.outcome = none))

/-! ### Encodings -/

/-- R184, R185, R206: the frame a server builds for a record passes tests 1 to 4, and the record read from it is the one
that was sent. The check register's form is the model's (log 5). -/
def Obligations.FrameBytesReadBack : Prop :=
  ∀ (k : RecordKind) (flags : Byte) (tag : Tag) (payload : List Byte), payload.length ≤ 16384 →
    judgeBytes (frameBytes k.code flags tag payload)
      = .inr { kind := k, flags := flags, tag := tag, payload := payload }

/-- R159 to R165, R187: the contents a server writes for a table entry are read back field by field. -/
def Obligations.TableContentsReadBack : Prop :=
  (∀ l : Layout, l.ok = true → readLayout (layoutContents l) = some l) ∧
  (∀ p : Profile, p.ok = true → readProfile (profileContents p) = some p) ∧
  (∀ q : QuarterWrite, isQuarterOffset q.offset = true → q.values.length = 64 → (∀ v ∈ q.values, v ≤ 8191) →
    readQuarter (quarterContents q) = some q) ∧
  ∀ u : UnitSettings, u.parkDelay ≤ 255 → readUnit (unitContents u) = some u

/-- R40, R45, R137, R139, R187, R206: the payloads of FOPEN, PHEAD, PBAND and TREAD and the replies of the motion port are
read back. -/
def Obligations.PayloadsAndRepliesReadBack : Prop :=
  (∀ (n : Nat) (q : FicheSeq), n ≤ 255 → readFopen (fopenPayload n q) = some { profile := n, seq := q }) ∧
  (∀ f : PheadFields, pheadFieldsOk f.w f.h f.depth f.d (f.key.getD []).length = true → f.key ≠ some [] →
    (∀ c, f.target = .explicit c → c ≤ 65535) → readPhead (pheadPayload f) = some f) ∧
  (∀ (w depth first count : Nat) (lines : List Byte), first ≤ 65535 → 1 ≤ count → count ≤ 16 →
    lines.length = count * bytesPerLine w depth →
    readBand w depth (pbandPayload first count lines) = .inr { first := first, count := count, dealt := 0 }) ∧
  (∀ (sel : TableSel) (n offset : Nat), n < sel.size → (sel = .curve → isQuarterOffset offset = true) →
    offset ≤ 255 → judgeTread (treadPayload sel n offset) = some (sel, n, offset)) ∧
  ∀ r : Reply, readReply (replyLine r) = some r

/-! ### Frames and link events -/

/-- R185, R186, R189: tests 1 to 4 in their order. A frame that fails one of them, or is ended by a start delimiter, is
dropped: its LINKERR is composed and one credit returned. The code of a frame ended by a start delimiter is the model's
reading (log 6); so is the form of the check register (log 5). -/
def Obligations.DamagedFramesAreDropped : Prop :=
  ∀ (bytes : List Byte) (s : State), s.link.state = .up →
    (16396 < bytes.length → judgeBytes bytes = .inl .recordLength) ∧
    (bytes.length ≤ 16396 → (bytes.length < 12 ∨ checkMatches bytes = false) → judgeBytes bytes = .inl .linkCrc) ∧
    (12 ≤ bytes.length → bytes.length ≤ 16396 → checkMatches bytes = true →
      ((16384 < numberAt bytes 2 2 ∨ numberAt bytes 2 2 ≠ bytes.length - 12) →
        judgeBytes bytes = .inl .recordLength) ∧
      (numberAt bytes 2 2 = bytes.length - 12 → (byteAt bytes 0 = 0 ∨ 10 < byteAt bytes 0) →
        judgeBytes bytes = .inl .unknownKind)) ∧
    (∀ code, judgeBytes bytes = .inl code →
      let u := composeDiscard (.linkErr
        { code := code, kindByte := byteAt bytes 0
          lengthField := if bytes.length < 4 then 0 else numberAt bytes 2 2
          b := min bytes.length 16397
          tag := if bytes.length < 8 then 0 else BitVec.ofNat 32 (numberAt bytes 4 4) }) s;
      exec (.frameReceived bytes) s
        = .next (linkFinish s { u with link := { u.link with counter := min 16 (u.link.counter + 1) } })) ∧
    (let u := composeDiscard (.linkErr
        { code := .linkCrc, kindByte := byteAt bytes 0
          lengthField := if bytes.length < 4 then 0 else numberAt bytes 2 2
          b := min bytes.length 16397
          tag := if bytes.length < 8 then 0 else BitVec.ofNat 32 (numberAt bytes 4 4) }) s;
      exec (.frameEndedByStartDelimiter bytes) s
        = .next (linkFinish s { u with link := { u.link with counter := min 16 (u.link.counter + 1) } }))

/-- R185 tests 6 to 8, R188, R190: a passing non-priority record takes a place at the tail; with the grant window open or
16 records queued it is dropped with LINKERR FLOW and no credit. Frames carry the model's check (log 5). -/
def Sys2Proof.Clauses.PassingRecordsAreQueued : Prop :=
  ∀ (k : RecordKind) (flags : Byte) (tag : Tag) (payload : List Byte) (s : State), k ≠ .abort → k ≠ .reset →
    payload.length ≤ 16384 → s.link.state = .up →
    (s.link.windowOpen = false → s.link.inbound.length < 16 →
      exec (.frameReceived (frameBytes k.code flags tag payload)) s
        = .next (linkFinish s { s with link := { s.link with
            inbound := s.link.inbound ++ [{ kind := k, flags := flags, tag := tag, payload := payload }] } })) ∧
    ((s.link.windowOpen = true ∨ 16 ≤ s.link.inbound.length) →
      exec (.frameReceived (frameBytes k.code flags tag payload)) s
        = .next (linkFinish s (composeDiscard (.linkErr
            { code := .flow, kindByte := k.code.toNat, lengthField := payload.length, b := payload.length + 12,
              tag := tag }) s)))

/-- R191, R206: a passing frame of kind ABORT or RESET is the priority command it stands for; a RESET's option is bit 0 of
its flags, and its payload is ignored. Frames carry the model's check (log 5). -/
def Sys2Proof.Clauses.PriorityFramesActAsCommands : Prop :=
  ∀ (flags : Byte) (tag : Tag) (payload : List Byte) (s : State), payload.length ≤ 16384 →
    (slotFree s .priority = true →
      exec (.frameReceived (frameBytes RecordKind.abort.code flags tag payload)) s = exec (.abort tag) s) ∧
    (flags.getLsbD 0 = true →
      exec (.frameReceived (frameBytes RecordKind.reset.code flags tag payload)) s = exec (.resetFull tag) s) ∧
    (flags.getLsbD 0 = false →
      exec (.frameReceived (frameBytes RecordKind.reset.code flags tag payload)) s = exec (.resetSoft tag) s)

/-- R185 tests 5 to 8, R186, R188, R190, R191, R206: what a frame that passes tests 1 to 4 does. -/
def Obligations.PassingFramesAreTaken : Prop :=
  Sys2Proof.Clauses.PassingRecordsAreQueued ∧ Sys2Proof.Clauses.PriorityFramesActAsCommands

/-- R32, R64, R93, R133, R154, R178, R207: what power-on leaves. Which of these values are the model's choices is in the log
(entries 19 and 28). -/
def Sys2Proof.Clauses.PowerOnSetsEveryBlock : Prop :=
  ∀ s : State, exec .powerOn s = .next { State.reset with pending := s.pending } ∧
    State.reset.link =
      { state := .down, inbound := [], counter := 0, windowOpen := false, reports := [], inTransmission := none,
        slots := [], overflow := false, lastRefusal := none } ∧
    State.reset.job.state = .ending ∧ State.reset.job.fiche = none ∧ State.reset.tables.pins = none ∧
    State.reset.tables.layouts = List.replicate 8 { valid := false, fields := Layout.zero } ∧
    State.reset.tables.profiles = List.replicate 8 { valid := false, fields := Profile.zero } ∧
    State.reset.tables.curves = List.replicate 4
      { values := List.replicate 256 0, written := { q0 := false, q64 := false, q128 := false, q192 := false } } ∧
    State.reset.tables.unit = { parkDelay := 60, alertReports := true } ∧
    State.reset.intake.state = .pageIdle ∧ State.reset.intake.contexts = [] ∧ State.reset.intake.store = [] ∧
    State.reset.intake.band = none ∧
    State.reset.engine.state = .idle ∧ State.reset.engine.exposure = none ∧ State.reset.engine.holdTimer = none ∧
    State.reset.engine.m = 0 ∧ State.reset.engine.c = 16384 ∧ State.reset.engine.sat = false ∧
    State.reset.headPortWidths = List.replicate 2048 0 ∧
    State.reset.head =
      { state := .parked, raw := 0, sum := 0, count := 0, len := none, mAvg := 0, mValid := false, c := 16384,
        sat := false, overActive := false, underActive := false, warmCounter := 0, warmTimer := none,
        parkTimer := none } ∧
    State.reset.transport.card = .homing ∧
    State.reset.transport.inFlight = some { number := 0, motion := .home } ∧
    State.reset.transport.pendingReq = none ∧ State.reset.transport.nextNumber = 1 ∧
    State.reset.transport.position = none ∧ State.reset.transport.faultCode = .noFault

/-- R32, R64, R93, R133, R154, R178, R207: the values after power-on, which meet every invariant stated above. -/
def Obligations.PowerOnValuesMeetTheInvariants : Prop :=
  Sys2Proof.Clauses.PowerOnMeetsTheInvariants ∧ Sys2Proof.Clauses.PowerOnSetsEveryBlock

/-- R181, R183, R190, R198: signal and alignment bring the link up. HELLO is composed, and its transmission begins, in the same
event (log 7, the model's reading), with the re-base to 16 credits. -/
def Obligations.LinkTrainsAndComesUp : Prop :=
  ∀ s : State,
    (s.link.state = .down → exec .signalDetectRising s = .next { s with link := { s.link with state := .training } }) ∧
    (s.link.state = .training → s.link.inTransmission = none →
      exec .alignment s = .next { s with link := { s.link with
        state := .up, reports := [], counter := 0, windowOpen := false
        inTransmission := some
          { report := .hello
              { partCode := "CBF-620", revision := 1, summary := s.tables.summary
                fiche := s.job.fiche.map fun f => { seq := f.seq, outcome := f.outcome, stack := f.stack }
                jobState := s.job.state }
            credit := 16, rebase := true } } })

/-- R181, R182: a loss of signal empties the feed link, keeps the overflow indicator and the last refusal code, and leaves
DOWN, or TRAINING where signal detect is still high; an idle part changes nothing else. -/
def Sys2Proof.Clauses.LossOfSignalEmptiesTheLink : Prop :=
  ∀ (cause : LossCause) (s : State), s.link.state ≠ .down →
    (∃ t, exec (.lossOfSignal cause) s = .next t ∧
      t.link =
        { state := match cause with
            | .signalDetectFell => .down
            | .alignmentLost => .training
          inbound := [], counter := 0, windowOpen := false, reports := [], inTransmission := none, slots := []
          overflow := s.link.overflow, lastRefusal := s.link.lastRefusal } ∧
      t.intake.band = none ∧ t.intake.pheadChecked = false) ∧
    (s.job.state = .idle → s.job.fopenedDue = false → s.job.onStop = none → s.engine.state = .idle →
      exec (.lossOfSignal cause) s = .next { s with
        link :=
          { state := match cause with
              | .signalDetectFell => .down
              | .alignmentLost => .training
            inbound := [], counter := 0, windowOpen := false, reports := [], inTransmission := none, slots := []
            overflow := s.link.overflow, lastRefusal := s.link.lastRefusal }
        intake := { s.intake with band := none, pheadChecked := false } })

/-- R29, R24, R23: a loss of signal that finds the job OPEN with an idle engine ends the fiche LINK_LOST, clears page intake
and sends EJECT REJECT for a card at rest on the stage. -/
def Sys2Proof.Clauses.LinkLossEndsTheOpenFiche : Prop :=
  ∀ (cause : LossCause) (s : State) (f : Fiche), s.link.state ≠ .down → s.job.state = .opened →
    s.job.fiche = some f → f.outcome = none → f.openingMet = true → s.job.fopenedDue = false → s.job.onStop = none →
    s.engine.state = .idle → s.engine.exposure = none → s.engine.driven = none → s.engine.stopping = false →
    s.engine.holdTimer = none →
    (s.transport.card = .loaded ∨ s.transport.card = .atCell) → s.transport.inFlight = none →
    s.transport.pendingReq = none →
    exec (.lossOfSignal cause) s = .next { s with
      link :=
        { state := match cause with
            | .signalDetectFell => .down
            | .alignmentLost => .training
          inbound := [], counter := 0, windowOpen := false, reports := [], inTransmission := none, slots := []
          overflow := s.link.overflow, lastRefusal := s.link.lastRefusal }
      job := { s.job with
        state := .ending, fiche := some { f with outcome := some .linkLost, stack := some .reject } }
      intake :=
        { state := .pageIdle, contexts := [], orphan := none, store := [], band := none, pheadChecked := false }
      transport := { s.transport with
        card := .ejecting, inFlight := some { number := s.transport.nextNumber, motion := .eject .reject }
        timer := none, nextNumber := s.transport.nextNumber + 1, position := none } }

/-- R23, R24, R29, R181, R182: a loss of signal, for the link, for an idle part and for an OPEN fiche. -/
def Obligations.LinkLossEmptiesTheLinkAndEndsTheFiche : Prop :=
  Sys2Proof.Clauses.LossOfSignalEmptiesTheLink ∧ Sys2Proof.Clauses.LinkLossEndsTheOpenFiche

/-- R198, R199: the end of a transmission, and the placing of a waiting report of a producer that does nothing further. -/
def Sys2Proof.Clauses.TransmissionEndsAndReportsArePlaced : Prop :=
  ∀ s : State,
    (∀ x, s.link.inTransmission = some x →
      exec .transmissionEnds s = .next (linkFinish s { s with link := { s.link with inTransmission := none } })) ∧
    (∀ p r rest, s.link.state = .up → s.link.reports.length < 32 → s.link.slots = (p, r) :: rest →
      (p = .tables ∨ p = .status ∨ p = .link ∨ p = .priority) →
      exec .reportPlaced s = .next (linkFinish s { s with link := { s.link with
        slots := rest, reports := s.link.reports ++ [r] } }))

/-- R82, R83, R199: the placing of the FRAME that an engine in FRAME_END waits for releases the context; with no context left
the engine is IDLE. -/
def Sys2Proof.Clauses.PlacedFrameReleasesTheContext : Prop :=
  ∀ (s : State) (r : Report) (rest : List (Producer × Report)) (x : Exposure) (c : Context),
    s.link.state = .up → s.link.reports.length < 32 → s.link.slots = (.engine, r) :: rest →
    s.job.state = .opened → s.job.fopenedDue = false → s.job.onStop = none → s.engine.state = .frameEnd →
    s.engine.exposure = some x → x.carried = none → s.intake.contexts = [c] → s.intake.orphan = none →
    exec .reportPlaced s = .next (linkFinish s { s with
      link := { s.link with slots := rest, reports := s.link.reports ++ [r] }
      intake := { s.intake with
        contexts := [], orphan := if c.ended = false ∧ c.voided = false then some c else none }
      engine := { s.engine with
        state := .idle, exposure := none, holdTimer := none, driven := none, stopping := false } })

/-- R18, R24, R27, R66, R68, R82, R83, R87, R199: what else the placing of a waiting FRAME does: the MOVE of a promoted
context; the closing step of a CLOSING job without one; in ENDING the stop's signal and the card's disposal; in FAULTED the
FCLOSED that waited for the engine. -/
def Sys2Proof.Clauses.PlacedFrameGoesOn : Prop :=
  ∀ (s : State) (r : Report) (rest : List (Producer × Report)) (x : Exposure) (f : Fiche),
    s.link.state = .up → s.link.reports.length < 32 → s.link.slots = (.engine, r) :: rest →
    s.engine.state = .frameEnd → s.engine.exposure = some x → s.job.fiche = some f → s.job.fopenedDue = false →
    let placed : State := { s with link := { s.link with slots := rest, reports := s.link.reports ++ [r] } };
    (∀ c staged more, (s.job.state = .opened ∨ (s.job.state = .closing ∧ f.outcome = none)) → s.job.onStop = none →
      f.openingMet = true → x.carried = none → s.intake.contexts = c :: staged :: more →
      (s.transport.card = .loaded ∨ s.transport.card = .atCell) → s.transport.inFlight = none →
      s.transport.pendingReq = none →
      let y := exposureOf s.layout staged;
      exec .reportPlaced s = .next (linkFinish s { placed with
        intake := { s.intake with contexts := staged :: more }
        engine := { Sys2Proof.Clauses.idled s.engine with state := .moving, exposure := some y }
        transport := { s.transport with
          card := .moving
          inFlight := some { number := s.transport.nextNumber, motion := .move staged.cell y.x y.y }
          timer := none, nextNumber := s.transport.nextNumber + 1, position := none } })) ∧
    (∀ c, s.job.state = .closing → s.job.onStop = none → f.openingMet = true → f.outcome = none →
      x.carried = none → s.intake.contexts = [c] → (c.ended = true ∨ c.voided = true) →
      (s.transport.card = .loaded ∨ s.transport.card = .atCell) → s.transport.inFlight = none →
      s.transport.pendingReq = none →
      exec .reportPlaced s = .next (linkFinish s (Sys2Proof.Clauses.closingMade f { placed with
        intake := { s.intake with contexts := [] }, engine := Sys2Proof.Clauses.idled s.engine }))) ∧
    (s.job.state = .ending → s.job.onStop = some .disposal → x.carried.isSome = true → s.intake.contexts = [] →
      s.transport.card ∈ [CardState.loading, .loaded, .atCell, .moving] →
      (s.transport.inFlight = none ↔ (s.transport.card = .loaded ∨ s.transport.card = .atCell)) →
      s.transport.pendingReq = none →
      exec .reportPlaced s = .next (linkFinish s (Sys2Proof.Clauses.disposed f { placed with
        job := { s.job with onStop := none }, engine := Sys2Proof.Clauses.idled s.engine }))) ∧
    (s.job.state = .faulted → s.job.onStop = none → x.carried.isSome = true → s.intake.contexts = [] →
      f.closed = false →
      let u : State := { placed with engine := Sys2Proof.Clauses.idled s.engine };
      exec .reportPlaced s = .next (linkFinish s
        (if slotFree placed .job = true then Sys2Proof.Clauses.closedWithFclosed f u else u)))

/-- R11, R13, R14, R20, R25, R27, R71, R199: what the placing of the job controller's report does: a FOPENED that waited is
composed, OPENING becomes OPEN with it and a line start that waited for OPEN is made; a FCLOSED that waited is composed with
the steps that follow it. That a NO_STOCK's end clears page intake and engine again then is the model's choice (log 11; for a
band in hand log 36). -/
def Sys2Proof.Clauses.PlacedJobReportGoesOn : Prop :=
  ∀ (s : State) (r : Report) (rest : List (Producer × Report)) (f : Fiche),
    s.link.state = .up → s.link.reports.length < 32 → s.link.slots = (.job, r) :: rest → s.job.fiche = some f →
    s.job.onStop = none →
    let placed : State := { s with link := { s.link with slots := rest, reports := s.link.reports ++ [r] } };
    slotFree placed .job = true →
    (s.job.fopenedDue = true → f.openingMet = true →
      let u : State := { composeSlot .job (Sys2Proof.Clauses.fopened f s.layout) placed with
        job := { s.job with
          fopenedDue := false, state := if s.job.state = .opening then .opened else s.job.state } };
      (((s.job.state = .opening ∧ (s.engine.state = .idle ∨ s.engine.state = .moving)) ∨
          (s.job.state = .closing ∧ f.outcome = none ∧ s.engine.state = .moving)) →
        exec .reportPlaced s = .next (linkFinish s u)) ∧
      ∀ x l ls, s.job.state = .opening → s.engine.state = .exposing → s.engine.exposure = some x →
        s.engine.driven = none → s.engine.stopping = false → s.head.state = .ready → s.transport.card = .atCell →
        s.transport.position = some x.cell → s.intake.store = l :: ls → l.cell = x.cell →
        exec .reportPlaced s
          = .next (linkFinish s (startImage x l.grays { u with intake := { s.intake with store := ls } }))) ∧
    (s.job.fopenedDue = false →
      (s.job.state = .closing → f.outcome ∈ [some FicheOutcome.complete, some .incomplete, some .empty] →
        s.transport.card = .empty → s.transport.inFlight = none → s.transport.pendingReq = none →
        exec .reportPlaced s = .next (linkFinish s (enterIdle (Sys2Proof.Clauses.closedWithFclosed f placed)))) ∧
      ((s.job.state = .opening ∨ s.job.state = .closing) → f.outcome = some .noStock →
        (s.engine.state = .idle ∨ s.engine.state = .waitOpen) →
        let u : State := if s.intake.band.isSome = true then removeHead placed else placed;
        exec .reportPlaced s = .next (linkFinish s (enterIdle (Sys2Proof.Clauses.closedWithFclosed f { u with
          intake := { u.intake with state := .pageIdle, contexts := [], orphan := none, store := [] }
          engine := Sys2Proof.Clauses.idled s.engine })))) ∧
      (s.job.state = .ending → f.closed = false → s.engine.state = .idle → s.transport.card = .empty →
        s.transport.inFlight = none → s.transport.pendingReq = none →
        exec .reportPlaced s = .next (linkFinish s (enterIdle (Sys2Proof.Clauses.closedWithFclosed
          { f with stack := some (f.stack.getD .noStack) } placed)))) ∧
      (s.job.state = .faulted → f.closed = false → s.engine.state = .idle →
        exec .reportPlaced s = .next (linkFinish s (Sys2Proof.Clauses.closedWithFclosed f placed))))

/-- R11, R13, R14, R18, R20, R24, R25, R27, R66, R68, R71, R82, R83, R87, R198, R199: the end of a transmission, and the placing
of a waiting report with what its producer does then. -/
def Obligations.WaitingReportsArePlaced : Prop :=
  Sys2Proof.Clauses.TransmissionEndsAndReportsArePlaced ∧ Sys2Proof.Clauses.PlacedFrameReleasesTheContext
    ∧ Sys2Proof.Clauses.PlacedFrameGoesOn ∧ Sys2Proof.Clauses.PlacedJobReportGoesOn

/-! ### Fiche jobs -/

/-- R1, R3, R11, R12, R140, R173: a FOPEN that passes its checks creates the fiche record and its frame map, pins the profile
and what it names, enters OPENING, sends LOAD, tells the head monitor of the pin and asks it for READY. -/
def Sys2Proof.Clauses.FopenOpensAFiche : Prop :=
  ∀ (s : State) (r : Record) (f : FopenFields), headRecord .fopen s = some r → slotFree s .job = true →
    s.job.state = .idle → readFopen r.payload = some f → f.profile ≤ 7 → s.tables.openable f.profile = true →
    s.transport.card = .empty → s.transport.inFlight = none → s.transport.pendingReq = none →
    let p := (s.tables.profileEntry f.profile).fields;
    let l := (s.tables.layoutEntry p.layout).fields;
    exec .fopen s = .next (linkFinish s (removeHead (askReady (headPinned { s with
      job :=
        { state := .opening, fopenedDue := false, onStop := none
          fiche := some
            { seq := f.seq, openTag := r.tag, closeTag := none, profile := f.profile, layout := p.layout
              curve := p.curve, openingMet := false, outcome := none, stack := none, faultCode := .noFault
              dose := 0, voidCount := 0, closed := false
              map := (List.range (l.rows * l.columns)).map fun i =>
                { kind := cellKind l i, state := .free, key := none
                  flags := { intake := IntakeFlags.none, engine := EngineFlags.none }
                  holdCount := 0, a := none, p := none, linesExposed := 0, linesFlooded := 0 } } }
      tables := { s.tables with pins := some { profile := f.profile, layout := p.layout, curve := p.curve } }
      transport := { s.transport with
        card := .loading, inFlight := some { number := s.transport.nextNumber, motion := .load }
        timer := none, nextNumber := s.transport.nextNumber + 1, position := none } }))))

/-- R11, R187, R196: the refusals of FOPEN in their order, and its wait for the job controller's slot. -/
def Sys2Proof.Clauses.FopenRefusalsInOrder : Prop :=
  ∀ (s : State) (r : Record), headRecord .fopen s = some r →
    (slotFree s .job = false → exec .fopen s = .next s) ∧
    (slotFree s .job = true →
      (s.job.state = .faulted → exec .fopen s = .next (linkFinish s (refuse .job r .faulted s))) ∧
      (s.job.state ∈ [JobState.opening, .opened, .closing, .ending] →
        exec .fopen s = .next (linkFinish s (refuse .job r .busy s))) ∧
      (s.job.state = .idle →
        ((r.payload.length ≠ 5 ∨ 7 < byteAt r.payload 0) →
          exec .fopen s = .next (linkFinish s (refuse .job r .badField s))) ∧
        (r.payload.length = 5 → byteAt r.payload 0 ≤ 7 →
          (s.tables.openable (byteAt r.payload 0) = false →
            exec .fopen s = .next (linkFinish s (refuse .job r .tableInvalid s))) ∧
          (s.tables.openable (byteAt r.payload 0) = true → s.transport.card ≠ .empty →
            exec .fopen s = .next (linkFinish s (refuse .job r .busy s))))))

/-- R1, R3, R11, R12, R140, R173, R187, R196: the judgement and the take of a FOPEN. -/
def Obligations.FopenIsTakenOrRefused : Prop :=
  Sys2Proof.Clauses.FopenOpensAFiche ∧ Sys2Proof.Clauses.FopenRefusalsInOrder

/-- R113, R114, R125, R126, R130, R174: what the pin, the request for READY and the return to IDLE do to the head monitor. -/
def Sys2Proof.Clauses.PinsRestartTheHeadMonitor : Prop :=
  ∀ s : State,
    headPinned s = { s with head := { s.head with
      sum := 0, count := 0, len := none, warmCounter := 0, overActive := false, underActive := false
      c := if s.head.mValid = true then (correctionOf s.profile s.head.mAvg).1 else s.head.c
      sat := if s.head.mValid = true then (correctionOf s.profile s.head.mAvg).2 else s.head.sat } } ∧
    (s.head.state = .parked → askReady s = { s with head := { s.head with
      state := .warming, sum := 0, count := 0, len := none, warmCounter := 0, warmTimer := some 30000 } }) ∧
    (s.head.state = .warming → askReady s = s) ∧
    (s.head.state = .ready → askReady s = { s with head := { s.head with parkTimer := none } }) ∧
    ∀ p, s.tables.pins = some p →
      enterIdle s = { s with
        job := { s.job with state := .idle }
        tables := { s.tables with pins := none }
        head := { s.head with
          sum := 0, count := 0, len := none, overActive := false, underActive := false
          parkTimer := if s.head.state = .ready ∧ 0 < s.tables.unit.parkDelay
            then some (s.tables.unit.parkDelay * 1000) else s.head.parkTimer } }

/-- R2, R160: the kind of each cell of a layout that passed its checks, and its DATA cell. -/
def Sys2Proof.Clauses.CellKindsFollowTheLayout : Prop :=
  ∀ l : Layout, l.ok = true →
    (∀ i < l.rows * l.columns,
      (cellKind l i = .title ↔ l.titleRow = true ∧ i / l.columns = 0) ∧
      (cellKind l i = .index ↔ i / l.columns = l.rows - 1 ∧ l.columns - l.indexCells ≤ i % l.columns)) ∧
    ((buildMap l).countP fun c => c.kind == .data) = l.dataCells ∧ 1 ≤ l.dataCells ∧ (buildMap l).length ≤ 420

/-- R5, R6: NEXT takes the first FREE DATA cell of the fill order, ROW by rows and COLUMN by columns; an explicit number takes
that cell of whatever kind. -/
def Sys2Proof.Clauses.CellsAreChosenInFillOrder : Prop :=
  ∀ (l : Layout) (map : List Cell),
    (l.fillOrder = .row → fillOrderCells l = List.range (l.rows * l.columns)) ∧
    (l.fillOrder = .column →
      fillOrderCells l
        = (List.range (l.columns * l.rows)).map fun k => k % l.rows * l.columns + k / l.rows) ∧
    (∀ pre i post, fillOrderCells l = pre ++ i :: post → (∀ j ∈ pre, isFreeData map j = false) →
      isFreeData map i = true → chooseCell l map .next = .inr i) ∧
    ((∀ i ∈ fillOrderCells l, isFreeData map i = false) → chooseCell l map .next = .inl .ficheFull) ∧
    ∀ i, (map.length ≤ i → chooseCell l map (.explicit i) = .inl .badField) ∧
      ∀ c, map[i]? = some c →
        (c.state ≠ .free → chooseCell l map (.explicit i) = .inl .cellTaken) ∧
        (c.state = .free → chooseCell l map (.explicit i) = .inr i)

/-- R2, R5, R6: the kinds of a layout's cells, and the cell a PHEAD is given. -/
def Obligations.CellKindsAndCellChoice : Prop :=
  Sys2Proof.Clauses.CellKindsFollowTheLayout ∧ Sys2Proof.Clauses.CellsAreChosenInFillOrder

/-- R56, R58: what an FCLOSE's end of the page leaves of page intake: an open page is ended with NO_END (one in FILL_TOP too), a
page without a context and a discarded one end with no flag, and where no page is open nothing changes. -/
def Sys2Proof.Clauses.pageEndedByFclose (hc : Nat) (i i' : Intake) : Prop :=
  ((i.state = .pageIdle ∨ i.state = .fillBottom) ∧ i' = i) ∨
  (i.state = .discarding ∧ i' = { i with state := .pageIdle }) ∨
  (∃ c, (i.state = .taking ∨ i.state = .fillTop) ∧ i.orphan = some c ∧
    i' = { i with orphan := none, state := .pageIdle }) ∨
  ∃ cs c, (i.state = .taking ∨ i.state = .fillTop) ∧ i.orphan = none ∧ i.contexts = cs ++ [c] ∧ c.voided = false ∧
    i' = { i with
      contexts := cs ++ [{ c with
        flags := { c.flags with short := c.flags.short || decide (c.e < c.d * c.hd), noEnd := true }
        pendingLine := none, ended := true }]
      state := if c.placed < hc then .fillBottom else .pageIdle }

/-- R17, R18, R19, R20, R58, R196: an FCLOSE waits for the job controller's slot, is refused by the job state, or taken, its open
page ended. With frames still to finish or the opening not met the job waits in CLOSING; with no context and an idle engine
the closing step evaluates the outcome and sends the EJECT. -/
def Obligations.FcloseClosesTheFiche : Prop :=
  ∀ (s : State) (r : Record), headRecord .fclose s = some r →
    (slotFree s .job = false → exec .fclose s = .next s) ∧
    (slotFree s .job = true →
      (s.job.state = .idle → exec .fclose s = .next (linkFinish s (refuse .job r .noFiche s))) ∧
      ((s.job.state = .closing ∨ s.job.state = .ending) →
        exec .fclose s = .next (linkFinish s (refuse .job r .busy s))) ∧
      (s.job.state = .faulted → exec .fclose s = .next (linkFinish s (refuse .job r .faulted s))) ∧
      ∀ f i, s.job.fiche = some f → f.outcome = none → s.job.fopenedDue = false → s.job.onStop = none →
        Sys2Proof.Clauses.pageEndedByFclose s.layout.hc s.intake i →
        (((s.job.state = .opened ∧ f.openingMet = true ∧ s.engine.state = .moving) ∨
            (s.job.state = .opening ∧ f.openingMet = false ∧ (s.transport.card ≠ .loaded ∨ s.head.state ≠ .ready) ∧
              (s.engine.state = .idle ∨ s.engine.state = .waitOpen))) →
          exec .fclose s = .next (linkFinish s (removeHead { s with
            job := { s.job with state := .closing, fiche := some { f with closeTag := some r.tag } }
            intake := i }))) ∧
        (s.job.state = .opened → f.openingMet = true → s.intake.contexts = [] → s.engine.state = .idle →
          s.engine.exposure = none → (s.transport.card = .loaded ∨ s.transport.card = .atCell) →
          s.transport.inFlight = none → s.transport.pendingReq = none →
          let o := evaluateOutcome f.map f.voidCount s.profile;
          exec .fclose s = .next (linkFinish s (removeHead { s with
            job := { s.job with
              state := .closing
              fiche := some { f with
                closeTag := some r.tag, outcome := some o
                stack := some (if o = .complete then .accept else .reject) } }
            intake := i
            transport := { s.transport with
              card := .ejecting
              inFlight := some
                { number := s.transport.nextNumber, motion := .eject (if o = .complete then .accept else .reject) }
              timer := none, nextNumber := s.transport.nextNumber + 1, position := none } }))))

/-- R19: the tests of the closing step in their order, on the frame map, the void count and the pinned profile. -/
def Obligations.OutcomeTestsInOrder : Prop :=
  ∀ (map : List Cell) (voids : Nat) (p : Profile),
    let exposed (c : Cell) : Prop := c.state = .exposed ∨ c.state = .exposedFault;
    ((¬ ∃ c ∈ map, c.kind = .data ∧ exposed c) → evaluateOutcome map voids p = .empty) ∧
    ((∃ c ∈ map, c.kind = .data ∧ exposed c) →
      (p.maxVoids < voids → evaluateOutcome map voids p = .incomplete) ∧
      (voids ≤ p.maxVoids →
        (p.indexRequired = true → (∃ c ∈ map, c.kind = .index ∧ ¬ exposed c) →
          evaluateOutcome map voids p = .incomplete) ∧
        ((p.indexRequired = false ∨ ∀ c ∈ map, c.kind = .index → exposed c) →
          evaluateOutcome map voids p = .complete))) ∧
    (evaluateOutcome map voids p).closingStack
      = (if evaluateOutcome map voids p = .complete then EjectStack.accept else .reject) ∧
    ∀ (s : State) (f : Fiche), s.job.state = .closing → s.job.fiche = some f → f.openingMet = true →
      f.outcome = none → s.intake.contexts = [] → s.engine.state = .idle →
      let o := evaluateOutcome f.map f.voidCount s.profile;
      closingStep s = requestEject o.closingStack (s.setFiche { f with outcome := some o })

/-- R22, R24, R191, R192: an ABORT is answered with its result code; where it is TAKEN the inbound queue is flushed, the fiche
ends ABORTED and EJECT REJECT is sent; where the priority reply slot is occupied it is dropped with LINKERR FLOW (its fields
are those of a 12-byte frame, log 4, the model's choice). The order of the actions is the model's reading (log 9). -/
def Obligations.AbortIsAnswered : Prop :=
  ∀ (tag : Tag) (s : State), s.link.state = .up →
    (slotFree s .priority = false →
      exec (.abort tag) s = .next (linkFinish s (composeDiscard (.linkErr
        { code := .flow, kindByte := 9, lengthField := 0, b := 12, tag := tag }) s))) ∧
    (slotFree s .priority = true →
      let answer (res : AbortResult) : State :=
        composeSlot .priority (.aborted { tag := tag, result := res, seq := s.ficheSeq }) s;
      (s.job.state = .idle → exec (.abort tag) s = .next (linkFinish s (answer .nothing))) ∧
      (s.job.state = .ending → exec (.abort tag) s = .next (linkFinish s (answer .already))) ∧
      (s.job.state = .faulted → exec (.abort tag) s = .next (linkFinish s (answer .faulted))) ∧
      (s.job.state = .closing → closingEjectRequested s = true →
        exec (.abort tag) s = .next (linkFinish s (answer .tooLate))) ∧
      ∀ f, s.job.state = .opened → s.job.fiche = some f → f.outcome = none → f.openingMet = true →
        s.job.fopenedDue = false → s.engine.state = .idle → s.engine.exposure = none →
        (s.transport.card = .loaded ∨ s.transport.card = .atCell) → s.transport.inFlight = none →
        s.transport.pendingReq = none →
        exec (.abort tag) s = .next (linkFinish s { s with
          link := { (answer .taken).link with
            inbound := [], counter := min 16 (s.link.counter + s.link.inbound.length) }
          job := { s.job with
            state := .ending, onStop := none
            fiche := some { f with outcome := some .aborted, stack := some .reject } }
          intake :=
            { state := .pageIdle, contexts := [], orphan := none, store := [], band := none, pheadChecked := false }
          transport := { s.transport with
            card := .ejecting, inFlight := some { number := s.transport.nextNumber, motion := .eject .reject }
            timer := none, nextNumber := s.transport.nextNumber + 1, position := none } }))

/-- R22, R29, R33, R135, R182, R192, R193: the causes that end a fiche without waiting for anything: a taken ABORT, a RESET SOFT
and link loss, the outcome each sets, and what it has made of the link, page intake and the alert states when the engine is
told to stop. The order within an ABORT is the model's reading (log 9). -/
def Sys2Proof.Clauses.endsTheFiche (c : Instr) (o : FicheOutcome) (s base : State) : Prop :=
  let cleared : Intake :=
    { state := .pageIdle, contexts := [], orphan := none, store := [], band := none, pheadChecked := false };
  (∃ tag, c = .abort tag ∧ o = .aborted ∧ s.link.state = .up ∧ slotFree s .priority = true ∧
    base = { s with
      link := { (composeSlot .priority (.aborted { tag := tag, result := .taken, seq := s.ficheSeq }) s).link with
        inbound := [], counter := min 16 (s.link.counter + s.link.inbound.length) }
      intake := cleared }) ∨
  (∃ tag, c = .resetSoft tag ∧ o = .reset ∧ s.link.state = .up ∧
    base = { s with
      link := { s.link with
        inbound := [], counter := min 16 (s.link.counter + s.link.inbound.length), windowOpen := true, slots := []
        reports := [.resetDone { tag := tag, option := .soft, priorSeq := s.ficheSeq, ficheEnded := true }] }
      intake := cleared
      head := { s.head with overActive := false, underActive := false } }) ∨
  ∃ cause, c = .lossOfSignal cause ∧ o = .linkLost ∧ s.link.state ≠ .down ∧
    base = { s with
      link :=
        { state := match cause with
            | .signalDetectFell => .down
            | .alignmentLost => .training
          inbound := [], counter := 0, windowOpen := false, reports := [], inTransmission := none, slots := []
          overflow := s.link.overflow, lastRefusal := s.link.lastRefusal }
      intake := cleared }

/-- R22 to R24, R29, R33, R63, R81, R82, R85 to R88, R92, R93: a taken ABORT, a RESET SOFT and a link loss in OPENING, OPEN or
CLOSING before the closing EJECT, by the engine's state. An IDLE, WAIT_OPEN or MOVING engine is IDLE at once and the card
disposed of; a line being driven goes on, the intake flags carried and the disposal waiting for its end (so does, at an
ABORT, a FRAME waiting in FRAME_END); a frame between lines is recorded VOID and reported at once, and the disposal follows
unless its FRAME has to wait. -/
def Sys2Proof.Clauses.EndingStopsTheEngine : Prop :=
  ∀ (c : Instr) (o : FicheOutcome) (s base : State) (f : Fiche), Sys2Proof.Clauses.endsTheFiche c o s base →
    s.job.state ∈ [JobState.opening, .opened, .closing] → s.job.fiche = some f → f.outcome = none →
    s.job.fopenedDue = false →
    s.transport.card ∈ [CardState.loading, .loaded, .atCell, .moving] →
    (s.transport.inFlight = none ↔ (s.transport.card = .loaded ∨ s.transport.card = .atCell)) →
    s.transport.pendingReq = none →
    let g : Fiche := { f with outcome := some o };
    let job (h : Fiche) (p : Option StopPurpose) : Job := { s.job with state := .ending, fiche := some h, onStop := p };
    (((s.engine.state = .idle ∧ s.job.state ≠ .closing ∧ s.engine.exposure = none ∧ s.engine.holdTimer = none ∧
          s.engine.driven = none ∧ s.engine.stopping = false) ∨
        s.engine.state = .waitOpen ∨ s.engine.state = .moving) →
      exec c s = .next (linkFinish s (Sys2Proof.Clauses.disposed g { base with
        job := job g none
        engine := { s.engine with
          state := .idle, exposure := none, holdTimer := none, driven := none, stopping := false } }))) ∧
    ∀ x ctx rest, s.engine.exposure = some x → x.carried = none → s.intake.contexts = ctx :: rest →
      let x1 : Exposure := { x with carried := some ctx.flags };
      ((((s.engine.state = .exposing ∨ s.engine.state = .flooding) ∧ s.engine.driven.isSome = true) ∨
          (s.engine.state = .frameEnd ∧ ∃ tag, c = .abort tag)) →
        exec c s = .next (linkFinish s { base with
          job := job g (some .disposal)
          engine := { s.engine with stopping := true, exposure := some x1 } })) ∧
      ∀ e, f.map[x.cell]? = some e → e.state = .exposing → s.engine.stopping = false →
        (s.engine.state = .holding ∨
          ((s.engine.state = .exposing ∨ s.engine.state = .flooding) ∧ s.engine.driven = none)) →
        exec c s = .next (linkFinish s (Sys2Proof.Clauses.stoppedFrame g e ctx.flags x1 { base with
          job := job g (some .disposal) }))

/-- R15, R20, R24, R140, R151: the DONE of a LOAD that an ENDING has waited for: EJECT REJECT is sent. -/
def Sys2Proof.Clauses.LoadDoneInEndingEjects : Prop :=
  ∀ (s : State) (n : CommandNumber) (f : Fiche), s.transport.inFlight = some { number := n, motion := .load } →
    s.transport.pendingReq = none → s.job.state = .ending → s.job.fiche = some f → s.job.fopenedDue = false →
    s.job.onStop = none →
    exec (.done n) s = .next (linkFinish s { s with
      job := { s.job with fiche := some { f with stack := some .reject } }
      transport := { s.transport with
        card := .ejecting, inFlight := some { number := s.transport.nextNumber, motion := .eject .reject }
        timer := none, nextNumber := s.transport.nextNumber + 1, position := none } })

/-- R18, R19, R24, R29, R33, R66, R68, R82, R83, R91, R93, R182, R193: an engine slot that a RESET SOFT or a link loss clears: the
engine proceeds as if its FRAME had been placed before the job ends: it releases the context and sends the MOVE of a promoted
one, is IDLE and the card sent to the reject stack where an OPEN job has none behind it, and a CLOSING job with no context
left makes its closing step (log 10 says where the order is the model's reading). At a RESET FULL the engine is IDLE and no
closing step made (log 35, the model's choice). -/
def Sys2Proof.Clauses.ClearedEngineSlotReleases : Prop :=
  ∀ (s : State) (x : Exposure) (ctx : Context) (rest : List Context), s.engine.state = .frameEnd →
    s.engine.exposure = some x → x.carried = none → s.intake.contexts = ctx :: rest →
    let idle : Engine := { s.engine with
      state := .idle, exposure := none, holdTimer := none, driven := none, stopping := false };
    let u : State := { s with
      intake := { s.intake with
        contexts := rest
        orphan := if rest = [] ∧ ctx.ended = false ∧ ctx.voided = false then some ctx else s.intake.orphan }
      engine := idle };
    engineSlotCleared s = admitContext u ∧ engineSlotLost s = u ∧
    ∀ (c : Instr) (o : FicheOutcome) (base : State) (f : Fiche), Sys2Proof.Clauses.endsTheFiche c o s base →
      (∀ tag, c ≠ .abort tag) → s.job.fiche = some f → f.outcome = none → f.openingMet = true →
      s.job.fopenedDue = false → s.job.onStop = none → (s.transport.card = .loaded ∨ s.transport.card = .atCell) →
      s.transport.inFlight = none → s.transport.pendingReq = none →
      (∀ staged more, s.job.state = .opened → rest = staged :: more →
        let y := exposureOf s.layout staged;
        exec c s = .next (linkFinish s { base with
          job := { s.job with
            state := .ending, fiche := some { f with outcome := some o, stack := some .reject } }
          engine := idle
          transport := { s.transport with
            card := .moving
            inFlight := some { number := s.transport.nextNumber, motion := .move staged.cell y.x y.y }
            pendingReq := some (.eject .reject), timer := none, nextNumber := s.transport.nextNumber + 1
            position := none } })) ∧
      (s.job.state = .opened → rest = [] →
        exec c s = .next (linkFinish s { base with
          job := { s.job with
            state := .ending, fiche := some { f with outcome := some o, stack := some .reject } }
          engine := idle
          transport := Sys2Proof.Clauses.ejectSent .reject s.transport })) ∧
      (s.job.state = .closing → rest = [] →
        let o2 := evaluateOutcome f.map f.voidCount s.profile;
        exec c s = .next (linkFinish s { base with
          intake := if o = .linkLost then { u.intake with band := none, pheadChecked := false } else base.intake
          job := { s.job with
            state := if o = .linkLost then .closing else .ending
            fiche := some { f with
              outcome := some o2, stack := some (if o2 = .complete then .accept else .reject) } }
          engine := idle
          transport := { s.transport with
            card := .ejecting
            inFlight := some
              { number := s.transport.nextNumber, motion := .eject (if o2 = .complete then .accept else .reject) }
            timer := none, nextNumber := s.transport.nextNumber + 1, position := none } }))

/-- R24, R29, R33, R82, R87, R92, R93, R182, R193: a RESET SOFT or a link loss that finds an ENDING job waiting for the engine's
stop: a line in progress goes on; an engine in FRAME_END, its slot cleared, releases and is IDLE, and the card is disposed
of. -/
def Sys2Proof.Clauses.StopUnderWayContinues : Prop :=
  ∀ (c : Instr) (s base : State) (f : Fiche) (x : Exposure),
    ((∃ tag, c = .resetSoft tag ∧ s.link.state = .up ∧ base = { s with
        link := { s.link with
          inbound := [], counter := min 16 (s.link.counter + s.link.inbound.length), windowOpen := true, slots := []
          reports := [.resetDone
            { tag := tag, option := .soft, priorSeq := s.ficheSeq, ficheEnded := endsFiche s }] }
        intake :=
          { state := .pageIdle, contexts := [], orphan := none, store := [], band := none, pheadChecked := false }
        head := { s.head with overActive := false, underActive := false } }) ∨
      ∃ cause, c = .lossOfSignal cause ∧ s.link.state ≠ .down ∧ base = { s with
        link :=
          { state := match cause with
              | .signalDetectFell => .down
              | .alignmentLost => .training
            inbound := [], counter := 0, windowOpen := false, reports := [], inTransmission := none, slots := []
            overflow := s.link.overflow, lastRefusal := s.link.lastRefusal }
        intake := { s.intake with band := none, pheadChecked := false } }) →
    s.job.state = .ending → s.job.fiche = some f → s.job.fopenedDue = false → s.job.onStop = some .disposal →
    s.engine.exposure = some x → x.carried.isSome = true → s.intake.contexts = [] →
    (s.transport.card = .loaded ∨ s.transport.card = .atCell) → s.transport.inFlight = none →
    s.transport.pendingReq = none →
    ((s.engine.state = .exposing ∨ s.engine.state = .flooding) → s.engine.driven.isSome = true →
      exec c s = .next (linkFinish s base)) ∧
    (s.engine.state = .frameEnd →
      exec c s = .next (linkFinish s (Sys2Proof.Clauses.disposed f { base with
        job := { s.job with onStop := none }, engine := Sys2Proof.Clauses.idled s.engine })))

/-- R15, R18 to R24, R29, R33, R63, R81 to R83, R85 to R88, R91 to R93, R182, R193: the ends of a fiche by a cause from
outside. The order within an ABORT, and of a cleared engine slot against the job's end, is the model's reading (logs 9 and
10). -/
def Obligations.TerminatingCausesStopTheEngine : Prop :=
  Sys2Proof.Clauses.EndingStopsTheEngine ∧ Sys2Proof.Clauses.LoadDoneInEndingEjects
    ∧ Sys2Proof.Clauses.ClearedEngineSlotReleases ∧ Sys2Proof.Clauses.StopUnderWayContinues

/-- R32, R34, R63, R85, R86, R88, R91, R134, R147, R155, R179, R193, R194: a RESET FULL. An engine that drives no line is IDLE at
once, whatever its state, its frame recorded nowhere: the part is cleared and HOME sent, or waits behind the command in
flight. With a line being driven the tables, the head and the HOME wait for the line's end. That the latched widths are
emptied is the model's choice (log 28), and so is that a CLOSING job with an engine in FRAME_END makes no closing step (log
35). -/
def Sys2Proof.Clauses.ResetFullClearsThePart : Prop :=
  ∀ (tag : Tag) (s : State), s.link.state = .up →
    let link : Link :=
      { state := .up, inbound := [], counter := min 16 (s.link.counter + s.link.inbound.length), windowOpen := true
        reports := [.resetDone { tag := tag, option := .full, priorSeq := s.ficheSeq, ficheEnded := endsFiche s }]
        inTransmission := s.link.inTransmission, slots := [], overflow := false, lastRefusal := none };
    let intake : Intake :=
      { state := .pageIdle, contexts := [], orphan := none, store := [], band := none, pheadChecked := false };
    (∀ e, (s.transport.inFlight = none → s.transport.pendingReq = none) →
      ((s.engine.state = .idle ∧ s.engine.exposure = none ∧ e = s.engine) ∨
        (e = Sys2Proof.Clauses.idled s.engine ∧
          (s.engine.state = .waitOpen ∨ s.engine.state = .moving ∨ s.engine.state = .frameEnd ∨
            (s.engine.exposure.isSome = true ∧ (s.engine.state = .holding ∨
              ((s.engine.state = .exposing ∨ s.engine.state = .flooding) ∧ s.engine.driven = none)))))) →
      exec (.resetFull tag) s
        = .next (linkFinish s (Sys2Proof.Clauses.fullyReset e { s with
            link := link, intake := intake
            head := { s.head with overActive := false, underActive := false } }))) ∧
    ∀ p x x1, s.tables.pins = some p → (s.engine.state = .exposing ∨ s.engine.state = .flooding) →
      s.engine.exposure = some x → s.engine.driven.isSome = true → s.transport.pendingReq = none →
      ((∃ c rest, x.carried = none ∧ s.intake.contexts = c :: rest ∧ x1 = { x with carried := some c.flags }) ∨
        (x.carried.isSome = true ∧ x1 = x)) →
      exec (.resetFull tag) s = .next (linkFinish s { s with
        link := link
        job := { state := .ending, fiche := none, fopenedDue := false, onStop := some .resetFull }
        tables := { s.tables with pins := none }
        intake := intake
        engine := { s.engine with stopping := true, exposure := some x1 }
        head := { s.head with sum := 0, count := 0, len := none, overActive := false, underActive := false } })

/-- R34, R33: the fiche that a reset ends. -/
def Sys2Proof.Clauses.ResetReportsTheEndedFiche : Prop :=
  ∀ s : State, endsFiche s = true ↔
    ∃ f, s.job.fiche = some f ∧ f.outcome = none ∧ s.job.state ∈ [JobState.opening, .opened, .closing, .ending]

/-- R32, R34, R63, R85, R86, R88, R91, R134, R147, R155, R179, R193, R194: a RESET FULL, and the fiche that a RESET's RESETDONE
reports ended. The empty latched widths after it are the model's choice (log 28), and so is the closing step not made (log
35). -/
def Obligations.ResetFullClearsAndReports : Prop :=
  Sys2Proof.Clauses.ResetFullClearsThePart ∧ Sys2Proof.Clauses.ResetReportsTheEndedFiche

/-- R33, R63, R135, R156, R180, R193: a RESET SOFT of an IDLE, an ENDING, an OPEN and a FAULTED job; tables, head and command in
flight are kept. An ENDING job asks again for an EJECT REJECT that the reset discards. -/
def Obligations.ResetSoftKeepsTablesAndHead : Prop :=
  ∀ (tag : Tag) (s : State), s.link.state = .up → s.engine.state = .idle → s.engine.exposure = none →
    s.job.fopenedDue = false → s.job.onStop = none →
    let link : Link := { s.link with
      inbound := [], counter := min 16 (s.link.counter + s.link.inbound.length), windowOpen := true, slots := []
      reports := [.resetDone { tag := tag, option := .soft, priorSeq := s.ficheSeq, ficheEnded := endsFiche s }] };
    let base : State := { s with
      link := link
      intake :=
        { state := .pageIdle, contexts := [], orphan := none, store := [], band := none, pheadChecked := false }
      head := { s.head with overActive := false, underActive := false } };
    (∀ f, s.job.state = .ending → s.job.fiche = some f → s.transport.inFlight.isSome = true →
      (s.transport.pendingReq = none → exec (.resetSoft tag) s = .next (linkFinish s base)) ∧
      (s.transport.pendingReq = some (.eject .reject) →
        exec (.resetSoft tag) s = .next (linkFinish s { base with
          job := { s.job with fiche := some { f with stack := some .reject } } }))) ∧
    (s.transport.pendingReq = none → s.transport.inFlight = none →
      (s.job.state = .idle → exec (.resetSoft tag) s = .next (linkFinish s base)) ∧
      (∀ f, s.job.state = .faulted → s.job.fiche = some f → f.closed = true →
        exec (.resetSoft tag) s = .next (linkFinish s { base with
          job := { s.job with state := .ending }
          transport := { s.transport with
            card := .homing, inFlight := some { number := s.transport.nextNumber, motion := .home }
            timer := none, nextNumber := s.transport.nextNumber + 1, position := none } })) ∧
      ∀ f, s.job.state = .opened → s.job.fiche = some f → f.outcome = none → f.openingMet = true →
        (s.transport.card = .loaded ∨ s.transport.card = .atCell) →
        exec (.resetSoft tag) s = .next (linkFinish s { base with
          job := { s.job with
            state := .ending, fiche := some { f with outcome := some .reset, stack := some .reject } }
          transport := { s.transport with
            card := .ejecting, inFlight := some { number := s.transport.nextNumber, motion := .eject .reject }
            timer := none, nextNumber := s.transport.nextNumber + 1, position := none } }))

/-- R13, R18 to R20, R30, R67, R68, R140: the DONE of LOAD with the head READY meets the opening: FOPENED is composed, an OPENING
job is OPEN, and a waiting engine sends its MOVE. A job that an FCLOSE has made CLOSING stays so, and with no context makes
the closing step at once. -/
def Obligations.LoadDoneOpensTheFiche : Prop :=
  ∀ (s : State) (n : CommandNumber) (f : Fiche),
    s.transport.inFlight = some { number := n, motion := .load } → s.transport.pendingReq = none →
    (s.job.state = .opening ∨ s.job.state = .closing) → s.job.fiche = some f → f.openingMet = false →
    f.outcome = none → s.job.fopenedDue = false → s.job.onStop = none → slotFree s .job = true →
    s.head.state = .ready →
    let u := composeSlot .job (Sys2Proof.Clauses.fopened f s.layout) s;
    let job : Job := { s.job with
      state := if s.job.state = .opening then .opened else .closing
      fiche := some { f with openingMet := true } };
    (s.engine.state = .idle → s.engine.exposure = none → (s.job.state = .opening ∨ s.intake.contexts ≠ []) →
      exec (.done n) s = .next (linkFinish s { u with
        job := job
        transport := { s.transport with
          card := .loaded, inFlight := none, timer := none, position := none } })) ∧
    (s.engine.state = .idle → s.engine.exposure = none → s.job.state = .closing → s.intake.contexts = [] →
      let o := evaluateOutcome f.map f.voidCount s.profile;
      exec (.done n) s = .next (linkFinish s { u with
        job := { job with fiche := some { f with
          openingMet := true, outcome := some o, stack := some (if o = .complete then .accept else .reject) } }
        transport := { s.transport with
          card := .ejecting
          inFlight := some
            { number := s.transport.nextNumber, motion := .eject (if o = .complete then .accept else .reject) }
          timer := none, nextNumber := s.transport.nextNumber + 1, position := none } })) ∧
    ∀ x, s.engine.state = .waitOpen → s.engine.exposure = some x →
      exec (.done n) s = .next (linkFinish s { u with
        job := job
        engine := { s.engine with state := .moving }
        transport := { s.transport with
          card := .moving
          inFlight := some { number := s.transport.nextNumber, motion := .move x.cell x.x x.y }
          timer := none, nextNumber := s.transport.nextNumber + 1, position := none } })

/-- R14, R20, R25, R31, R63, R140, R142: the closing EJECT's DONE, and a LOAD's NO_STOCK before the opening (in OPENING, or in
CLOSING with the opening not met, the engine IDLE or in WAIT_OPEN), end the fiche: FCLOSED is composed, the fiche closed and
the job IDLE. A NO_STOCK clears page intake; that a band in hand of which no line has been consumed goes as well is the
model's choice (log 36). -/
def Sys2Proof.Clauses.FicheClosesWithFclosed : Prop :=
  ∀ (s : State) (n : CommandNumber) (f : Fiche), s.job.fiche = some f → s.job.fopenedDue = false →
    s.job.onStop = none → slotFree s .job = true → s.transport.pendingReq = none →
    let arrived : Transport := { s.transport with card := .empty, inFlight := none, timer := none, position := none };
    (∀ st, s.transport.inFlight = some { number := n, motion := .eject st } → s.job.state = .closing →
      s.engine.state = .idle → s.engine.exposure = none →
      f.openingMet = true → f.outcome ∈ [some FicheOutcome.complete, some .incomplete, some .empty] →
      exec (.done n) s = .next (linkFinish s (enterIdle (Sys2Proof.Clauses.closedWithFclosed f { s with
        transport := arrived })))) ∧
    (s.transport.inFlight = some { number := n, motion := .load } →
      (s.job.state = .opening ∨ s.job.state = .closing) → f.openingMet = false → f.outcome = none →
      (s.engine.state = .idle ∨ s.engine.state = .waitOpen) →
      let g : Fiche := { f with outcome := some .noStock, stack := some .noStack };
      let u : State := if s.intake.band.isSome = true then removeHead s else s;
      exec (.fault n .noStock) s = .next (linkFinish s (enterIdle (Sys2Proof.Clauses.closedWithFclosed g { u with
        intake := { u.intake with state := .pageIdle, contexts := [], orphan := none, store := [] }
        engine := Sys2Proof.Clauses.idled s.engine
        transport := arrived }))))

/-- R10, R20, R26, R27, R31, R32, R63, R81, R82, R88 to R90, R143 to R145, R148: a FAULT reply with JAM or LIMIT, or the motion
timer's expiry, ends the command in flight in a transport fault, in any job state but IDLE. The job becomes FAULTED; a record
not yet closed takes the fault code, the stack NONE and, where none is set, the outcome TRANSPORT_FAULT. ALERT (where alert
reports are enabled) and FCLOSED are composed, FCLOSED once the engine is IDLE and the job controller's slot empty. A WAIT_OPEN
engine is IDLE; a MOVING engine first voids its context: the cell goes from ASSIGNED to VOID and a FRAME with zeros is
reported. A pending request is discarded, but a pending HOME is sent. That the clearing drops a band in hand of which no line
has been consumed is the model's choice (log 36). -/
def Obligations.TransportFaultFaultsTheJob : Prop :=
  ∀ (s : State) (c : Instr) (k : InFlight) (code : TransportCode), s.transport.inFlight = some k →
    ((c = .fault k.number .jam ∧ code = .jam) ∨ (c = .fault k.number .limit ∧ code = .limit) ∨
      (c = .motionTimeout ∧ code = .timeout ∧ s.transport.timer.isSome = true)) →
    s.job.state ≠ .idle → s.job.fopenedDue = false → s.job.onStop = none →
    let home : Bool := s.transport.pendingReq == some .home;
    let s0 : State := if s.intake.band.isSome = true then removeHead s else s;
    let alerted : State := if s.tables.unit.alertReports = true then
        composeDiscard (.transportAlert
          { code := code, command := k.motion.word, number := k.number, cardBefore := s.transport.card
            arguments := k.motion.args, seq := s.ficheSeq }) s0
      else s0;
    let faulted : State := { alerted with
      job := { s.job with state := .faulted }
      intake := { s0.intake with state := .pageIdle, contexts := [], orphan := none, store := [] }
      transport := { s.transport with
        card := if home = true then .homing else .fault
        inFlight := if home = true then some { number := s.transport.nextNumber, motion := .home } else none
        nextNumber := if home = true then s.transport.nextNumber + 1 else s.transport.nextNumber
        pendingReq := none, timer := none, faultCode := code, position := none } };
    (s.job.fiche = none → s.engine.state = .idle → s.engine.exposure = none →
      exec c s = .next (linkFinish s faulted)) ∧
    ∀ f, s.job.fiche = some f →
      let g : Fiche := if f.closed = true then f else { f with
        outcome := some (f.outcome.getD .transportFault), faultCode := code, stack := some .noStack };
      let ended (h : Fiche) (u : State) : State :=
        if h.closed = false ∧ slotFree s .job = true then Sys2Proof.Clauses.closedWithFclosed h u
        else { u with job := { u.job with fiche := some h } };
      (∀ e, ((s.engine.state = .idle ∧ s.engine.exposure = none ∧ e = s.engine) ∨
          (s.engine.state = .waitOpen ∧ e = Sys2Proof.Clauses.idled s.engine)) →
        exec c s = .next (linkFinish s (ended g { faulted with engine := e }))) ∧
      ∀ x ctx rest e, s.engine.state = .moving → s.engine.exposure = some x → x.carried = none → x.mMin = none →
        x.mMax = none → s.intake.contexts = ctx :: rest → f.map[x.cell]? = some e → e.state = .assigned →
        f.closed = false →
        let r : FrameResult :=
          { final := .void, flags := { intake := ctx.flags, engine := EngineFlags.none }, holdCount := 0, a := 0, p := 0
            linesExposed := 0, linesFlooded := 0 };
        let v := Sys2Proof.Clauses.frameEnded g e { x with carried := some ctx.flags } r faulted;
        exec c s = .next (linkFinish s (if slotFree v .engine = true then
            ended (Sys2Proof.Clauses.withResult g e x r) { v with engine := Sys2Proof.Clauses.idled v.engine }
          else v))

/-! ### Page intake -/

/-- R16, R39, R42, R196, R197: an offered page record is judged against the job state first; an occupied slot of the link
interface makes the record wait before that (log 25, the model's reading). -/
def Obligations.PageRecordsAreJudgedByJobState : Prop :=
  ∀ (s : State) (r : Record) (c : Instr),
    ((c = .phead ∧ headRecord .phead s = some r ∧ s.intake.pheadChecked = false) ∨
      (c = .pheadTake ∧ headRecord .phead s = some r ∧ s.intake.pheadChecked = true ∧ s.intake.state = .pageIdle ∧
        s.intake.contexts.length < 2) ∨
      (c = .pband ∧ headRecord .pband s = some r ∧ s.intake.band = none) ∨
      (c = .pend ∧ headRecord .pend s = some r)) →
    (s.intake.state = .pageIdle ∨ s.intake.state = .taking ∨ s.intake.state = .discarding) →
    (slotFree s .link = false → exec c s = .next s) ∧
    (slotFree s .link = true →
      (s.job.state = .idle → exec c s = .next (linkFinish s (refuse .link r .noFiche s))) ∧
      ((s.job.state = .closing ∨ s.job.state = .ending) →
        exec c s = .next (linkFinish s (refuse .link r .busy s))) ∧
      (s.job.state = .faulted → exec c s = .next (linkFinish s (refuse .link r .faulted s))))

/-- R38, R40, R41, R56, R58: the examination of a PHEAD. A bad field is refused; otherwise an open page is ended with NO_END and
the PHEAD waits, checked, to be taken. A checked PHEAD is not examined again. -/
def Obligations.PheadIsCheckedOnce : Prop :=
  ∀ (s : State) (r : Record), headRecord .phead s = some r → slotFree s .link = true →
    (s.intake.pheadChecked = true → exec .phead s = .next s) ∧
    (s.intake.pheadChecked = false → (s.job.state = .opening ∨ s.job.state = .opened) →
    ((s.intake.state = .pageIdle ∨ s.intake.state = .taking ∨ s.intake.state = .discarding) →
      readPhead r.payload = none → exec .phead s = .next (linkFinish s (refuse .link r .badField s))) ∧
    ∀ f, readPhead r.payload = some f →
      (s.intake.state = .pageIdle →
        exec .phead s = .next (linkFinish s { s with intake := { s.intake with pheadChecked := true } })) ∧
      (s.intake.state = .discarding →
        exec .phead s = .next (linkFinish s { s with intake := { s.intake with
          state := .pageIdle, pheadChecked := true } })) ∧
      (∀ cs c, s.intake.state = .taking → s.intake.orphan = none → s.intake.contexts = cs ++ [c] →
        c.voided = false →
        exec .phead s = .next (linkFinish s { s with intake := { s.intake with
          contexts := cs ++ [{ c with
            flags := { c.flags with short := c.flags.short || decide (c.e < c.d * c.hd), noEnd := true }
            pendingLine := none, ended := true }]
          state := if c.placed < s.layout.hc then .fillBottom else .pageIdle
          pheadChecked := true } })) ∧
      (∀ c, s.intake.state = .taking → s.intake.orphan = some c →
        exec .phead s = .next (linkFinish s { s with intake := { s.intake with
          orphan := none, state := .pageIdle, pheadChecked := true } })))

/-- R57, R58, R62, R56, R38: a PEND ends the open page, and an FCLOSE's ending of a page in FILL_TOP. -/
def Obligations.PendEndsThePage : Prop :=
  ∀ s : State,
    (∀ r, headRecord .pend s = some r → slotFree s .link = true →
      (s.job.state = .opening ∨ s.job.state = .opened) →
      (s.intake.state = .pageIdle → exec .pend s = .next (linkFinish s (refuse .link r .noPage s))) ∧
      (s.intake.state = .discarding →
        exec .pend s = .next (linkFinish s (removeHead { s with intake := { s.intake with state := .pageIdle } }))) ∧
      (∀ cs c, s.intake.state = .taking → s.intake.orphan = none → s.intake.contexts = cs ++ [c] →
        c.voided = false →
        exec .pend s = .next (linkFinish s (removeHead { s with intake := { s.intake with
          contexts := cs ++ [{ c with
            flags := { c.flags with short := c.flags.short || decide (c.e < c.d * c.hd) }
            pendingLine := none, ended := true }]
          state := if c.placed < s.layout.hc then .fillBottom else .pageIdle } }))) ∧
      (∀ c, s.intake.state = .taking → s.intake.orphan = some c →
        exec .pend s = .next (linkFinish s (removeHead { s with intake := { s.intake with
          orphan := none, state := .pageIdle } })))) ∧
    (∀ cs c, s.intake.state = .fillTop → s.intake.orphan = none → s.intake.contexts = cs ++ [c] →
      c.voided = false →
      endOpenPage s = { s with intake := { s.intake with
        contexts := cs ++ [{ c with
          flags := { c.flags with short := c.flags.short || decide (c.e < c.d * c.hd), noEnd := true }
          pendingLine := none, ended := true }]
        state := if c.placed < s.layout.hc then .fillBottom else .pageIdle } })

/-- R7, R35, R36, R42, R43: the take of a checked PHEAD assigns its cell and creates its context, or refuses it. -/
def Sys2Proof.Clauses.PheadTakeCreatesTheContext : Prop :=
  ∀ (s : State) (r : Record) (f : PheadFields) (g : Fiche), headRecord .phead s = some r →
    slotFree s .link = true → s.intake.pheadChecked = true → s.intake.state = .pageIdle →
    s.intake.contexts.length < 2 → (s.job.state = .opening ∨ s.job.state = .opened) →
    readPhead r.payload = some f → s.job.fiche = some g →
    (∀ code, chooseCell s.layout g.map f.target = .inl code →
      exec .pheadTake s = .next (linkFinish s (refuse .link r code s))) ∧
    ∀ cell e, chooseCell s.layout g.map f.target = .inr cell → g.map[cell]? = some e →
      let c : Context :=
        { cell := cell, key := f.key, w := f.w, h := f.h, depth := f.depth, d := f.d, wd := f.w / f.d, hd := f.h / f.d
          hOff := placementOffset (f.w / f.d) s.layout.wc s.profile.alignment
          vOff := placementOffset (f.h / f.d) s.layout.hc s.profile.alignment
          e := 0, placed := 0, pendingLine := none, ended := false, voided := false
          flags := { IntakeFlags.none with
            cropped := decide (s.layout.wc < f.w / f.d) || decide (s.layout.hc < f.h / f.d) } };
      exec .pheadTake s = .next (linkFinish s (removeHead (admitContext { s with
        job := { s.job with fiche := some { g with
          map := g.map.set cell { e with state := .assigned, key := f.key } } }
        intake := { s.intake with
          contexts := s.intake.contexts ++ [c]
          state := if 0 < c.vOff.marginLines then .fillTop else .taking } })))

/-- R65, R66, R68, R138, R140: an IDLE engine admits the EXPOSING context: WAIT_OPEN before the opening, otherwise MOVING with
the MOVE to the cell's stage position sent. -/
def Sys2Proof.Clauses.AdmissionRequestsTheMove : Prop :=
  ∀ (s : State) (c : Context) (rest : List Context), s.engine.state = .idle → s.intake.contexts = c :: rest →
    let col := c.cell % s.layout.columns;
    let row := c.cell / s.layout.columns;
    let x : Exposure :=
      { cell := c.cell, row := row, column := col, x := s.layout.originX + col * s.layout.pitchX
        y := s.layout.originY + row * s.layout.pitchY, key := c.key, linesExposed := 0, linesFlooded := 0, a := 0
        p := 0, holdCount := 0, flags := EngineFlags.none, mMin := none, mMax := none, carried := none };
    (openingMet s = false →
      admitContext s = { s with engine := { s.engine with state := .waitOpen, exposure := some x } }) ∧
    (openingMet s = true → (s.transport.card = .loaded ∨ s.transport.card = .atCell) →
      s.transport.inFlight = none → s.transport.pendingReq = none →
      admitContext s = { s with
        engine := { s.engine with state := .moving, exposure := some x }
        transport := { s.transport with
          card := .moving
          inFlight := some { number := s.transport.nextNumber, motion := .move x.cell x.x x.y }
          timer := none, nextNumber := s.transport.nextNumber + 1, position := none } })

/-- R7, R35, R36, R42, R43, R65, R66, R68, R138, R140: the take of a PHEAD, and the engine's admission of its context. -/
def Obligations.PheadTakeCreatesAndAdmitsTheContext : Prop :=
  Sys2Proof.Clauses.PheadTakeCreatesTheContext ∧ Sys2Proof.Clauses.AdmissionRequestsTheMove

/-- R38, R45, R62, R187: the examination of a PBAND. -/
def Obligations.PbandIsExamined : Prop :=
  ∀ (s : State) (r : Record), headRecord .pband s = some r → slotFree s .link = true → s.intake.band = none →
    (s.job.state = .opening ∨ s.job.state = .opened) →
    (s.intake.state = .pageIdle → exec .pband s = .next (linkFinish s (refuse .link r .noPage s))) ∧
    (s.intake.state = .discarding → exec .pband s = .next (linkFinish s (removeHead s))) ∧
    ∀ c, s.intake.state = .taking → s.intake.page = some c →
      ((r.payload.length < 3 ∨ byteAt r.payload 2 = 0 ∨ 16 < byteAt r.payload 2) →
        exec .pband s = .next (linkFinish s (refuse .link r .badField s))) ∧
      (3 ≤ r.payload.length → 1 ≤ byteAt r.payload 2 → byteAt r.payload 2 ≤ 16 →
        (r.payload.length - 3 ≠ byteAt r.payload 2 * (if c.depth = 8 then c.w else (c.w + 7) / 8) →
          exec .pband s = .next (linkFinish s (refuse .link r .bandLength s))) ∧
        (r.payload.length - 3 = byteAt r.payload 2 * (if c.depth = 8 then c.w else (c.w + 7) / 8) →
          exec .pband s = .next (linkFinish s { s with intake := { s.intake with
            band := some { first := numberAt r.payload 0 2, count := byteAt r.payload 2, dealt := 0 } } })))

/-- R47 to R51, R53, R55, R56: BAND_LINE deals with the band's next line: discarded as DUP or LONG, or consumed (a gap line first
where one is missing) through decimation and placement; a line that gives a placed line waits while the store is full. A
page without a context goes through the same checks, records no flag and places no line; its cell's lines were all placed
before its release. One command deals with one line (log 24, the model's choice). -/
def Obligations.BandLinesAreConsumedInOrder : Prop :=
  ∀ (s : State) (r : Record) (b : Band) (c : Context), headRecord .pband s = some r → s.intake.band = some b →
    slotFree s .link = true → s.intake.state = .taking →
    let j := b.first + b.dealt;
    let left (n : Nat) (u : State) : State :=
      if b.count ≤ b.dealt + n then removeHead u
      else { u with intake := { u.intake with band := some { b with dealt := b.dealt + n } } };
    (∀ cs, s.intake.orphan = none → s.intake.contexts = cs ++ [c] → c.voided = false →
      let paged (c' : Context) : State := { s with intake := { s.intake with contexts := cs ++ [c'] } };
      let consumed (grays : List Nat) (flags : IntakeFlags) (n : Nat) : Prop :=
        (c.d = 2 → c.e % 2 = 0 →
          (c.e + 1 ≠ c.h → exec .bandLine s = .next (linkFinish s (left n (paged { c with
            e := c.e + 1, flags := flags, pendingLine := some grays })))) ∧
          (c.e + 1 = c.h → exec .bandLine s = .next (linkFinish s (left n (paged { c with
            e := c.e + 1, flags := flags }))))) ∧
        ∀ k line c1,
          ((c.d = 1 ∧ k = c.e ∧ line = grays ∧ c1 = { c with e := c.e + 1, flags := flags }) ∨
            (∃ top, c.d = 2 ∧ c.e % 2 = 1 ∧ c.pendingLine = some top ∧ k = c.e / 2 ∧ line = decimateLines top grays ∧
              c1 = { c with e := c.e + 1, flags := flags, pendingLine := none })) →
          (placedNumber c.vOff s.layout.hc k = some c.placed → c.placed < s.layout.hc →
            (s.intake.store.length < 8 → exec .bandLine s = .next (linkFinish s (left n
              (appendLine c1 (composeLine s.layout.wc s.profile.fillGray c.hOff line) s)))) ∧
            (8 ≤ s.intake.store.length → exec .bandLine s = .next s)) ∧
          ((placedNumber c.vOff s.layout.hc k ≠ some c.placed ∨ s.layout.hc ≤ c.placed) →
            exec .bandLine s = .next (linkFinish s (left n (paged c1))));
      (j < c.e → exec .bandLine s = .next (linkFinish s (left 1 (paged { c with
        flags := { c.flags with dup := true } })))) ∧
      (c.e = c.h → c.h ≤ j → exec .bandLine s = .next (linkFinish s (left 1 (paged { c with
        flags := { c.flags with long := true } })))) ∧
      (j = c.e → c.e < c.h → consumed (bandLineGrays c.w c.depth r.payload b.dealt) c.flags 1) ∧
      (c.e < j → c.e < c.h →
        consumed (List.replicate c.w s.profile.fillGray) { c.flags with gap := true } 0)) ∧
    (s.intake.orphan = some c → s.layout.hc ≤ c.placed →
      let kept (c' : Context) (n : Nat) : Prop :=
        exec .bandLine s = .next (linkFinish s (left n { s with intake := { s.intake with orphan := some c' } }));
      (j < c.e → kept c 1) ∧
      (c.e = c.h → c.h ≤ j → kept c 1) ∧
      ∀ n grays, c.e < c.h →
        ((j = c.e ∧ n = 1 ∧ grays = bandLineGrays c.w c.depth r.payload b.dealt) ∨
          (c.e < j ∧ n = 0 ∧ grays = List.replicate c.w s.profile.fillGray)) →
        (c.d = 1 → kept { c with e := c.e + 1 } n) ∧
        (c.d = 2 → c.e % 2 = 0 → c.e + 1 ≠ c.h → kept { c with e := c.e + 1, pendingLine := some grays } n) ∧
        (c.d = 2 → c.e % 2 = 0 → c.e + 1 = c.h → kept { c with e := c.e + 1 } n) ∧
        (c.d = 2 → c.e % 2 = 1 → c.pendingLine.isSome = true → kept { c with e := c.e + 1, pendingLine := none } n))

/-- R44, R57, R59: top margin and fill lines are appended while a slot is free, each kind ending in its state; with no free slot
the command does nothing (log 1, the model's choice). -/
def Sys2Proof.Clauses.MarginAndFillLinesAreAppended : Prop :=
  ∀ (s : State) (cs : List Context) (c : Context), s.intake.orphan = none → s.intake.contexts = cs ++ [c] →
    let u := appendLine c (List.replicate s.layout.wc s.profile.fillGray) s;
    (s.intake.state = .fillTop →
      (8 ≤ s.intake.store.length → exec .topMarginLine s = .next s) ∧
      (s.intake.store.length < 8 →
        (c.placed + 1 < c.vOff.marginLines → exec .topMarginLine s = .next u) ∧
        (c.vOff.marginLines ≤ c.placed + 1 →
          exec .topMarginLine s = .next { u with intake := { u.intake with state := .taking } }))) ∧
    (s.intake.state = .fillBottom →
      (8 ≤ s.intake.store.length → exec .fillLine s = .next s) ∧
      (s.intake.store.length < 8 →
        (c.placed + 1 < s.layout.hc → exec .fillLine s = .next u) ∧
        (s.layout.hc ≤ c.placed + 1 →
          exec .fillLine s = .next { u with intake := { u.intake with state := .pageIdle } })))

/-- R53, R59, R60, R71, R76: an appended line goes to the store's tail; where the engine HOLDS for that context its line start
is made at once with it. -/
def Sys2Proof.Clauses.AppendedLineEndsTheHold : Prop :=
  ∀ (s : State) (cs : List Context) (c0 c : Context) (grays : List Nat), s.intake.orphan = none →
    s.intake.contexts = cs ++ [c0] →
    let contexts := cs ++ [{ c with placed := c.placed + 1 }];
    let base : State := { s with intake := { s.intake with
      contexts := contexts
      store := s.intake.store ++ [{ cell := c.cell, lineNo := c.placed, grays := grays }] } };
    (s.engine.state ≠ .holding → appendLine c grays s = base) ∧
    ∀ x, s.engine.state = .holding → s.engine.exposure = some x → s.intake.store = [] →
      (c.cell ≠ x.cell → appendLine c grays s = base) ∧
      (c.cell = x.cell → mayDrive s x = true →
        appendLine c grays s = startImage x grays { s with intake := { s.intake with
          contexts := contexts, store := [] } })

/-- R44, R53, R57, R59, R60, R71, R76: margin and fill lines, and what the appending of a line does. -/
def Obligations.MarginAndFillLinesEnterTheStore : Prop :=
  Sys2Proof.Clauses.MarginAndFillLinesAreAppended ∧ Sys2Proof.Clauses.AppendedLineEndsTheHold

/-- R52: the decimated value of each column of decimated line k, from source lines 2k and 2k + 1; a gap line takes part as a
line whose every pixel is the fill gray. -/
def Sys2Proof.Clauses.DecimationAveragesBlocks : Prop :=
  (∀ top bottom : List Nat, top.length = bottom.length →
    (decimateLines top bottom).length = top.length / 2 ∧
    ∀ j, j < top.length / 2 →
      (decimateLines top bottom)[j]? = some ((top.getD (2 * j) 0 + top.getD (2 * j + 1) 0
        + bottom.getD (2 * j) 0 + bottom.getD (2 * j + 1) 0 + 2) / 4)) ∧
  (∀ (c : Context) (k : Nat) (top bottom : List Nat), c.d = 2 →
    (2 * k + 1 < c.h → decimateStep c (2 * k) top = ({ c with pendingLine := some top }, none)) ∧
    decimateStep { c with pendingLine := some top } (2 * k + 1) bottom
      = ({ c with pendingLine := none }, some (k, decimateLines top bottom))) ∧
  ∀ (fill : Nat) (c : Context) (b : Band) (payload : List Byte),
    bandStepGrays .gapLine fill c b payload = some (List.replicate c.w fill)

/-- R43, R54: where an image lies in its cell, and the columns of a placed line. -/
def Obligations.ImagesArePlacedInTheirCell : Prop :=
  (∀ image cell : Nat,
    (image ≤ cell → placementOffset image cell .centre = .margin ((cell - image) / 2)
      ∧ placementOffset image cell .topLeft = .margin 0) ∧
    (cell < image → placementOffset image cell .centre = .skip ((image - cell) / 2)
      ∧ placementOffset image cell .topLeft = .skip 0)) ∧
  ∀ (wc fill : Nat) (align : Sys2Proof.Machine.Alignment) (src : List Nat),
    let out := composeLine wc fill (placementOffset src.length wc align) src;
    out.length = wc ∧
    (∀ ml, placementOffset src.length wc align = .margin ml →
      ∀ i < wc, out[i]? = if ml ≤ i ∧ i < ml + src.length then src[i - ml]? else some fill) ∧
    (∀ sx, placementOffset src.length wc align = .skip sx → ∀ i < wc, out[i]? = src[sx + i]?)

/-- R46: a line's bytes, and its source pixels as gray values, at both depths. -/
def Sys2Proof.Clauses.PixelsExpandToGray : Prop :=
  ∀ (w : Nat) (src : List Byte),
    bytesPerLine w 8 = w ∧ bytesPerLine w 1 = (w + 7) / 8 ∧
    (src.length = w → expandLine w 8 src = src.map BitVec.toNat) ∧
    (expandLine w 1 src).length = w ∧
    ∀ j < w, ∀ b, src[j / 8]? = some b →
      (expandLine w 1 src)[j]? = some (if b.getLsbD (7 - j % 8) = true then 0 else 255)

/-- R46, R52: from the bytes of a source line to gray values, and from two source lines to a decimated one. -/
def Obligations.PixelsBecomeDecimatedLines : Prop :=
  Sys2Proof.Clauses.PixelsExpandToGray ∧ Sys2Proof.Clauses.DecimationAveragesBlocks

/-! ### Exposure engine and doses -/

/-- R72, R73, R74: an image line start latches the head monitor's values and computes the corrected, clamped widths; emitters
beyond the line's stay dark. -/
def Obligations.ImageLineWidthsAreCorrectedAndClamped : Prop :=
  ∀ (x : Exposure) (grays : List Nat) (s : State),
    let bases := grays.map fun g => s.curve.getD g 0;
    let t (base : Nat) : Nat := (base * s.head.c + 8192) / 16384;
    let u := startImage x grays s;
    u = { s with engine := { s.engine with
      state := .exposing, holdTimer := none, m := s.head.mAvg, c := s.head.c, sat := s.head.sat
      widths := bases.map fun base => if s.profile.pulseMax < t base then s.profile.pulseMax else t base
      driven := some (.image bases s.profile.mRef)
      exposure := some { x with
        flags := { x.flags with
          corrSat := x.flags.corrSat || s.head.sat
          pulseClamp := x.flags.pulseClamp || bases.any fun base => decide (s.profile.pulseMax < t base) }
        mMin := some (min (x.mMin.getD s.head.mAvg) s.head.mAvg)
        mMax := some (max (x.mMax.getD s.head.mAvg) s.head.mAvg) } } } ∧
    (grays.length ≤ 2048 → u.headPortWidths.length = 2048 ∧
      ∀ i, grays.length ≤ i → i < 2048 → u.headPortWidths[i]? = some 0) ∧
    (s.head.c = 16384 → ∀ base, t base = base) ∧
    (s.head.c ≤ 24576 → ∀ base ≤ 8191, t base ≤ 12287)

/-- R8, R18, R70, R71, R75, R140, R150: in OPEN, and in CLOSING, the MOVE's DONE starts the frame: the cell becomes EXPOSING,
and the first line start is made or, with no line of the context at the store head, the hold begins; under a hold limit of 0
the frame is voided at once. -/
def Sys2Proof.Clauses.MoveDoneStartsTheFrame : Prop :=
  ∀ (s : State) (n : CommandNumber) (x : Exposure) (px py : Nat) (f : Fiche) (e : Cell) (c : Context)
    (rest : List Context),
    s.transport.inFlight = some { number := n, motion := .move x.cell px py } → s.transport.pendingReq = none →
    s.engine.state = .moving → s.engine.exposure = some x → s.engine.stopping = false →
    s.intake.contexts = c :: rest → c.cell = x.cell → Sys2Proof.Clauses.framesGoOn s →
    s.job.fiche = some f → f.map[x.cell]? = some e → e.state = .assigned → s.head.state = .ready →
    let x0 : Exposure := { x with
      linesExposed := 0, linesFlooded := 0, a := 0, p := 0, holdCount := 0, flags := EngineFlags.none
      mMin := none, mMax := none };
    let u : State := { s with
      job := { s.job with fiche := some { f with map := f.map.set x.cell { e with state := .exposing } } }
      engine := { s.engine with state := .exposing, holdTimer := none, driven := none, exposure := some x0 }
      transport := { s.transport with
        card := .atCell, inFlight := none, timer := none, position := some x.cell } };
    (∀ l ls, s.intake.store = l :: ls → l.cell = x.cell →
      exec (.done n) s
        = .next (linkFinish s (startImage x0 l.grays { u with intake := { s.intake with store := ls } }))) ∧
    ((∀ l ls, s.intake.store = l :: ls → l.cell ≠ x.cell) →
      (0 < s.profile.holdLimit →
        exec (.done n) s = .next (linkFinish s { u with engine := { u.engine with
          state := .holding, holdTimer := some s.profile.holdLimit
          exposure := some { x0 with flags := { EngineFlags.none with held := true }, holdCount := 1 } } })) ∧
      (s.profile.holdLimit = 0 → exec (.done n) s = .next (linkFinish s (voidFrame u))))

/-- R71: when a line may be driven. -/
def Sys2Proof.Clauses.LinesNeedHeadCardAndJob : Prop :=
  ∀ (s : State) (x : Exposure), mayDrive s x = true ↔
    s.head.state = .ready ∧ s.transport.card = .atCell ∧ s.transport.position = some x.cell ∧
      (s.job.state = .opened ∨ s.job.state = .closing ∨ s.job.state = .ending) ∧ s.engine.stopping = false

/-- R8, R18, R70, R71, R75, R140, R150: the MOVE's DONE starts the frame; when a line may be driven. -/
def Obligations.MoveDoneStartsTheFrameAtItsCell : Prop :=
  Sys2Proof.Clauses.MoveDoneStartsTheFrame ∧ Sys2Proof.Clauses.LinesNeedHeadCardAndJob

/-- R9, R18 to R20, R24, R74, R75, R79, R81 to R83, R85 to R87, R91, R93 to R95, R97, R100, R101, R134, R155, R179: an image
line's end adds its doses, then makes the next line start, the hold (under a hold limit of 0 the void), or the frame end, in
OPEN and in CLOSING, where the end of the last frame makes the closing step. Under a stop the frame is recorded VOID and the
card disposed of; under that of a RESET FULL nothing is recorded and the part is cleared. -/
def Obligations.LineEndAccountsTheLine : Prop :=
  ∀ (s : State) (x : Exposure) (bases : List Nat) (mRef : Nat), s.engine.state = .exposing →
    s.engine.exposure = some x → s.engine.driven = some (.image bases mRef) →
    let x1 : Exposure := { x with
      a := x.a + s.engine.widths.sum * s.engine.m / 65536, p := x.p + bases.sum * mRef / 65536
      linesExposed := x.linesExposed + 1 };
    let u : State := { s with engine := { s.engine with exposure := some x1, driven := none } };
    (s.engine.stopping = false → Sys2Proof.Clauses.framesGoOn s →
      (x1.linesExposed + x1.linesFlooded ≠ s.layout.hc → mayDrive s x = true →
        (∀ l ls, s.intake.store = l :: ls → l.cell = x.cell →
          exec .lineEnd s
            = .next (linkFinish s (startImage x1 l.grays { u with intake := { s.intake with store := ls } }))) ∧
        ((∀ l ls, s.intake.store = l :: ls → l.cell ≠ x.cell) →
          (0 < s.profile.holdLimit → exec .lineEnd s = .next (linkFinish s { u with engine := { u.engine with
            state := .holding, holdTimer := some s.profile.holdLimit
            exposure := some { x1 with
              flags := { x1.flags with held := true }, holdCount := min 255 (x1.holdCount + 1) } } })) ∧
          (s.profile.holdLimit = 0 →
            exec .lineEnd s = .next (linkFinish s (voidFrame u))))) ∧
      (x1.linesExposed + x1.linesFlooded = s.layout.hc →
        let ef : EngineFlags := { x1.flags with
          dose := x1.flags.dose || doseDisagrees x1.a x1.p s.profile.doseTolerance };
        let r : FrameResult :=
          { final := if (ef.limit || ef.corrSat || ef.dose) = true then .exposedFault else .exposed
            flags := { intake := resultIntakeFlags s x, engine := ef }, holdCount := x.holdCount, a := x1.a, p := x1.p
            linesExposed := x1.linesExposed, linesFlooded := x.linesFlooded };
        ((s.job.state = .opened ∨ 2 ≤ s.intake.contexts.length) →
          exec .lineEnd s = .next (linkFinish s (handOver .exposing { x1 with flags := ef } r u))) ∧
        ∀ f e, Sys2Proof.Clauses.lastOfTheFiche s x f e →
          exec .lineEnd s
            = .next (linkFinish s (Sys2Proof.Clauses.lastFrameEnded f e { x1 with flags := ef } r u)))) ∧
    (s.engine.stopping = true →
      (∀ f, s.job.fiche = some f →
        exec .lineEnd s = .next (linkFinish s (jobTests (handOver .exposing x1
          { final := .void, flags := { intake := resultIntakeFlags s x, engine := x.flags }, holdCount := x.holdCount
            a := x1.a, p := x1.p, linesExposed := x1.linesExposed, linesFlooded := x.linesFlooded } u)))) ∧
      (∀ f e k, Sys2Proof.Clauses.stopAwaited s x f e k →
        exec .lineEnd s = .next (linkFinish s (Sys2Proof.Clauses.stoppedFrame f e k x1 u))) ∧
      (Sys2Proof.Clauses.fullResetAwaited s x →
        exec .lineEnd s
          = .next (linkFinish s (Sys2Proof.Clauses.fullyReset (Sys2Proof.Clauses.idled s.engine) s))))

/-- R9, R18 to R20, R24, R78, R79, R81 to R83, R85 to R87, R91, R93, R96, R97, R134, R155, R179: a flood line's end adds its
dose to A alone, then starts the next flood line or ends the frame VOID, in OPEN and in CLOSING, where the end of the last
frame makes the closing step. Under a stop the frame is recorded VOID as it stands and the card disposed of; under that of a
RESET FULL nothing is recorded and the part is cleared. -/
def Obligations.FloodLineEndAccountsTheLine : Prop :=
  ∀ (s : State) (x : Exposure), s.engine.state = .flooding → s.engine.exposure = some x →
    s.engine.driven = some .flood →
    let x1 : Exposure := { x with
      a := x.a + s.engine.widths.sum * s.engine.m / 65536, linesFlooded := x.linesFlooded + 1 };
    let u : State := { s with engine := { s.engine with exposure := some x1, driven := none } };
    let r : FrameResult :=
      { final := .void, flags := { intake := resultIntakeFlags s x, engine := x.flags }, holdCount := x.holdCount
        a := x1.a, p := x.p, linesExposed := x.linesExposed, linesFlooded := x1.linesFlooded };
    (s.engine.stopping = false → Sys2Proof.Clauses.framesGoOn s →
      (x1.linesExposed + x1.linesFlooded ≠ s.layout.hc → mayDrive s x = true →
        exec .floodLineEnd s = .next (linkFinish s { s with engine := { s.engine with
          m := s.head.mAvg, widths := List.replicate s.layout.wc s.profile.voidPulse, driven := some .flood
          exposure := some { x1 with
            mMin := some (min (x.mMin.getD s.head.mAvg) s.head.mAvg)
            mMax := some (max (x.mMax.getD s.head.mAvg) s.head.mAvg) } } })) ∧
      (x1.linesExposed + x1.linesFlooded = s.layout.hc →
        ((s.job.state = .opened ∨ 2 ≤ s.intake.contexts.length) →
          exec .floodLineEnd s = .next (linkFinish s (handOver .exposing x1 r u))) ∧
        ∀ f e, Sys2Proof.Clauses.lastOfTheFiche s x f e →
          exec .floodLineEnd s = .next (linkFinish s (Sys2Proof.Clauses.lastFrameEnded f e x1 r u)))) ∧
    (s.engine.stopping = true →
      (∀ f, s.job.fiche = some f →
        exec .floodLineEnd s = .next (linkFinish s (jobTests (handOver .exposing x1 r u)))) ∧
      (∀ f e k, Sys2Proof.Clauses.stopAwaited s x f e k →
        exec .floodLineEnd s = .next (linkFinish s (Sys2Proof.Clauses.stoppedFrame f e k x1 u))) ∧
      (Sys2Proof.Clauses.fullResetAwaited s x →
        exec .floodLineEnd s
          = .next (linkFinish s (Sys2Proof.Clauses.fullyReset (Sys2Proof.Clauses.idled s.engine) s))))

/-- R61, R62, R77, R78: the void of the frame in progress. The context's lines leave the store and it is marked voided; its page,
where it is the current page, is discarded or filled no further and a band of it dropped (also one of which no line has been
consumed: log 36, the model's choice); a STAGED context, its lines and page intake's state are untouched. FLOODING is entered
and the first flood line driven, as soon as R71's conditions allow (log 12, the model's reading). -/
def Sys2Proof.Clauses.VoidPurgesAndFloods : Prop :=
  ∀ (s : State) (x : Exposure) (c : Context) (rest : List Context), s.engine.exposure = some x →
    s.intake.contexts = c :: rest →
    let v : State := { s with
      intake := { s.intake with
        store := s.intake.store.filter fun l => l.cell != c.cell
        contexts := { c with voided := true, pendingLine := none } :: rest
        state := if rest = [] then
            match s.intake.state with
            | .fillTop | .taking | .discarding => .discarding
            | .fillBottom | .pageIdle => .pageIdle
          else s.intake.state }
      engine := if mayDrive s x = true then
          { s.engine with
            state := .flooding, holdTimer := none, m := s.head.mAvg
            widths := List.replicate s.layout.wc s.profile.voidPulse, driven := some .flood
            exposure := some { x with
              mMin := some (min (x.mMin.getD s.head.mAvg) s.head.mAvg)
              mMax := some (max (x.mMax.getD s.head.mAvg) s.head.mAvg) } }
        else { s.engine with state := .flooding, holdTimer := none, driven := none } };
    ((rest ≠ [] ∨ s.intake.band = none) → voidFrame s = v) ∧
    (rest = [] → s.intake.band.isSome = true → voidFrame s = removeHead v)

/-- R61, R62, R76, R77, R78: the hold timer's expiry in HOLDING voids the frame. -/
def Obligations.HoldExpiryVoidsTheFrame : Prop :=
  (∀ s : State, s.engine.state = .holding → s.engine.holdTimer.isSome = true →
    exec .holdTimerExpiry s = .next (linkFinish s (voidFrame s))) ∧
  Sys2Proof.Clauses.VoidPurgesAndFloods

/-- R9, R80, R81, R82, R101, R104: a frame's result enters the frame map and the fiche's accounts, its FRAME report is
composed, and the engine waits in FRAME_END with the exposure side the result was taken from, or releases. -/
def Obligations.FrameResultsAreRecordedAndReported : Prop :=
  ∀ (s : State) (old : CellState) (x : Exposure) (r : FrameResult) (f : Fiche) (e : Cell),
    s.job.fiche = some f → f.map[x.cell]? = some e → e.state = old → isExposingCell s x.cell = true →
    let u := Sys2Proof.Clauses.frameEnded f e x r s;
    handOver old x r s = if slotFree u .engine = true then release u else u

/-- R100: the frame dose check, under the pinned profile's dose tolerance. -/
def Obligations.DoseCheckComparesAWithP : Prop :=
  ∀ a p tol : Nat,
    (p = 0 → (doseDisagrees a p tol = true ↔ 0 < a)) ∧
    (0 < p → (doseDisagrees a p tol = true ↔ tol * p < ((a : Int) - (p : Int)).natAbs * 1000)) ∧
    (((a : Int) - (p : Int)).natAbs * 1000 = tol * p → doseDisagrees a p tol = false) ∧
    (∀ d ≤ p, doseDisagrees (p + d) p tol = doseDisagrees (p - d) p tol) ∧
    (a ≤ 51532529664 → p ≤ 51532529664 → tol ≤ 500 →
      ((a : Int) - (p : Int)).natAbs * 1000 ≤ 51532529664000 ∧ tol * p ≤ 25766264832000) ∧
    (∀ x : Exposure, checkedFlags x tol = { x.flags with dose := x.flags.dose || doseDisagrees x.a x.p tol }) ∧
    ∀ (x : Exposure) (s : State),
      let ef := checkedFlags x s.profile.doseTolerance;
      frameEndExposed x s = handOver .exposing { x with flags := ef } (resultOf s x (finalState ef) ef) s

/-- R94 to R96: a line dose is the exact quotient, truncated, and lies within R99's bound. -/
def Sys2Proof.Clauses.LineDosesAreBounded : Prop :=
  (∀ (ws : List Nat) (level : Nat), ws.length ≤ 2048 → (∀ w ∈ ws, w ≤ 8191) → level ≤ 65535 →
    lineDose ws.sum level * 65536 ≤ ws.sum * level ∧ ws.sum * level < lineDose ws.sum level * 65536 + 65536 ∧
      lineDose ws.sum level ≤ 16774912) ∧
  ∀ n level : Nat, lineDose n 0 = 0 ∧ lineDose 0 level = 0

/-- R99: the bounds of a frame of at most 3,072 lines, of its cell, and of the fiche dose of at most 420 such cells, in any
state that meets the invariants. -/
def Sys2Proof.Clauses.FrameAndFicheDosesAreBounded : Prop :=
  ∀ s : State, DosesOk s →
    (∀ x, s.engine.exposure = some x → x.linesExposed + x.linesFlooded ≤ 3072 →
      x.a ≤ 51532529664 ∧ x.p ≤ 51532529664) ∧
    ∀ f, s.job.fiche = some f → (∀ c ∈ f.map, c.linesExposed + c.linesFlooded ≤ 3072) →
      (∀ c ∈ f.map, c.a.getD 0 ≤ 51532529664 ∧ c.p.getD 0 ≤ 51532529664) ∧
      (FicheOk f → f.map.length ≤ 420 → f.dose ≤ 21643662458880)

/-- R94 to R97, R99, R104: every step keeps A of the frame in progress and of each cell within 16,774,912 for each of its lines,
and P within that for each exposed line; a line dose, a frame's doses and the fiche dose keep R99's bounds. -/
def Obligations.DosesStayWithinTheirBounds : Prop :=
  (∀ s t : State, TablesOk s → HeadOk s → DosesOk s → step s = .next t → DosesOk t) ∧
  Sys2Proof.Clauses.LineDosesAreBounded ∧ Sys2Proof.Clauses.FrameAndFicheDosesAreBounded

/-! ### Head monitor -/

/-- R110, R111, R112, R127: a conversion adds to the average, and the last of an average completes it; under a pinned profile
the raw value or the average is compared by the basis, the correction computed, and the warm counter of a WARMING head rises
for an average within the limits or is set to 0. That a raw value is compared before the average it completes is the model's
choice (log 34). -/
def Sys2Proof.Clauses.ConversionsAverageAndWarmUp : Prop :=
  ∀ (s : State) (raw : Sample), s.head.state ≠ .parked →
    let n := s.head.len.getD (averageLength s);
    let m := (s.head.sum + raw.toNat + n / 2) / n;
    let added : State := { s with head := { s.head with
      raw := raw.toNat, sum := s.head.sum + raw.toNat, count := s.head.count + 1, len := some n } };
    let averaged (u : State) : State := { u with head := { u.head with
      raw := raw.toNat, sum := 0, count := 0, len := none, mAvg := m, mValid := true } };
    (s.head.count + 1 ≠ n →
      (s.tables.pins = none ∨ s.profile.basis = .averaged → exec (.conversion raw) s = .next (linkFinish s added)) ∧
      (s.tables.pins.isSome = true → s.profile.basis = .raw →
        exec (.conversion raw) s = .next (linkFinish s (compareValue raw.toNat added)))) ∧
    (s.head.count + 1 = n →
      (s.tables.pins = none → exec (.conversion raw) s = .next (linkFinish s (averaged s))) ∧
      (s.tables.pins.isSome = true →
        let u : State := match s.profile.basis with
          | .averaged => compareValue m (averaged s)
          | .raw => averaged (compareValue raw.toNat added);
        let k : Nat := if s.profile.underLimit ≤ m ∧ m ≤ s.profile.overLimit then s.head.warmCounter + 1 else 0;
        (s.head.state = .ready → exec (.conversion raw) s = .next (linkFinish s { u with head := { u.head with
          c := (correctionOf s.profile m).1, sat := (correctionOf s.profile m).2 } })) ∧
        (s.head.state = .warming → k < s.profile.warmCount →
          exec (.conversion raw) s = .next (linkFinish s { u with head := { u.head with
            c := (correctionOf s.profile m).1, sat := (correctionOf s.profile m).2, warmCounter := k } }))))

/-- R13, R30, R67, R68, R112, R127, R128: the average within the limits that takes the warm counter to the warm count makes the
head READY. With the card still LOADING the job goes on OPENING; with the card LOADED the opening is met: FOPENED is composed,
the job is OPEN, and a waiting engine sends its MOVE. -/
def Sys2Proof.Clauses.ReadyHeadMeetsTheOpening : Prop :=
  ∀ (s : State) (raw : Sample) (f : Fiche), s.head.state = .warming → s.tables.pins.isSome = true →
    s.profile.basis = .averaged →
    let n := s.head.len.getD (averageLength s);
    let m := (s.head.sum + raw.toNat + n / 2) / n;
    s.head.count + 1 = n → s.profile.underLimit ≤ m → m ≤ s.profile.overLimit → s.head.overActive = false →
    s.head.underActive = false → s.profile.warmCount ≤ s.head.warmCounter + 1 → s.job.state = .opening →
    s.job.fiche = some f → f.outcome = none → f.openingMet = false → s.job.fopenedDue = false → s.job.onStop = none →
    let ready : Head := { s.head with
      state := .ready, raw := raw.toNat, sum := 0, count := 0, len := none, mAvg := m, mValid := true
      c := (correctionOf s.profile m).1, sat := (correctionOf s.profile m).2
      warmCounter := s.head.warmCounter + 1, warmTimer := none };
    (s.transport.card = .loading → exec (.conversion raw) s = .next (linkFinish s { s with head := ready })) ∧
    (s.transport.card = .loaded → slotFree s .job = true → s.transport.inFlight = none →
      s.transport.pendingReq = none →
      let u : State := { composeSlot .job (Sys2Proof.Clauses.fopened f s.layout) s with
        head := ready
        job := { s.job with state := .opened, fiche := some { f with openingMet := true } } };
      (s.engine.state = .idle → s.engine.exposure = none → exec (.conversion raw) s = .next (linkFinish s u)) ∧
      ∀ x, s.engine.state = .waitOpen → s.engine.exposure = some x →
        exec (.conversion raw) s = .next (linkFinish s { u with
          engine := { s.engine with state := .moving }
          transport := { s.transport with
            card := .moving
            inFlight := some { number := s.transport.nextNumber, motion := .move x.cell x.x x.y }
            timer := none, nextNumber := s.transport.nextNumber + 1, position := none } }))

/-- R111: the length of an average that begins now. -/
def Sys2Proof.Clauses.AverageLengthHasThreeSources : Prop :=
  ∀ s : State,
    (s.tables.pins.isSome = true → averageLength s = s.profile.averaging) ∧
    (s.tables.pins = none → (s.tables.profileEntry 0).valid = true →
      averageLength s = (s.tables.profileEntry 0).fields.averaging) ∧
    (s.tables.pins = none → (s.tables.profileEntry 0).valid = false → averageLength s = 16)

/-- R13, R30, R67, R68, R110, R111, R112, R127, R128: conversions, averages and their length, and the warm-up. The raw value is
compared before the average it completes: the model's choice (log 34). -/
def Obligations.ConversionsCompleteAverages : Prop :=
  Sys2Proof.Clauses.ConversionsAverageAndWarmUp ∧ Sys2Proof.Clauses.ReadyHeadMeetsTheOpening
    ∧ Sys2Proof.Clauses.AverageLengthHasThreeSources

/-- R84, R115 to R119: a compared value within the limits, an over and an under excursion, by alert mode. -/
def Sys2Proof.Clauses.ComparedValuesSetTheAlerts : Prop :=
  ∀ (v : Nat) (s : State), s.profile.underLimit < s.profile.overLimit →
    let latched : Bool := s.profile.alertMode == .latched;
    let marked : State := match s.engine.exposure with
      | some x =>
        if s.engine.state = .exposing ∨ s.engine.state = .holding ∨ s.engine.state = .flooding then
          { s with engine := { s.engine with exposure := some { x with flags := { x.flags with limit := true } } } }
        else s
      | none => s;
    let alert (k : AlertKind) (limit : Nat) : Report := .limitAlert
      { kind := k, value := v, basis := s.profile.basis, limit := limit, headState := s.head.state
        seq := s.ficheSeq };
    (s.profile.underLimit ≤ v → v ≤ s.profile.overLimit →
      compareValue v s = { s with head := { s.head with
        overActive := latched && s.head.overActive, underActive := latched && s.head.underActive } }) ∧
    (s.profile.overLimit < v →
      let w : State := { marked with head := { s.head with
        overActive := true, underActive := latched && s.head.underActive } };
      compareValue v s = if s.head.overActive = false ∧ s.tables.unit.alertReports = true
        then composeDiscard (alert .overLimit s.profile.overLimit) w else w) ∧
    (v < s.profile.underLimit →
      let w : State := { marked with head := { s.head with
        overActive := latched && s.head.overActive, underActive := true } };
      compareValue v s = if s.head.underActive = false ∧ s.tables.unit.alertReports = true
        then composeDiscard (alert .underLimit s.profile.underLimit) w else w)

/-- R122, R123: the correction factor and its saturation. -/
def Sys2Proof.Clauses.CorrectionFollowsTheRatio : Prop :=
  ∀ (p : Profile) (m : Nat),
    (p.correctionOn = false → correctionOf p m = (16384, false)) ∧
    (p.correctionOn = true → correctionOf p 0 = (24576, true)) ∧
    (p.correctionOn = true → 0 < m →
      let q := (16384 * p.mRef + m / 2) / m;
      (q < 12288 → correctionOf p m = (12288, true)) ∧
      (24576 < q → correctionOf p m = (24576, true)) ∧
      (12288 ≤ q → q ≤ 24576 → correctionOf p m = (q, false))) ∧
    12288 ≤ (correctionOf p m).1 ∧ (correctionOf p m).1 ≤ 24576

/-- R84, R115 to R119, R122, R123: limits, alerts and correction. -/
def Obligations.HeadMonitorComparesAndCorrects : Prop :=
  Sys2Proof.Clauses.ComparedValuesSetTheAlerts ∧ Sys2Proof.Clauses.CorrectionFollowsTheRatio

/-- R15, R24, R109, R129, R131: the warm timer's and the park timer's expiry park the head; the first ends a fiche that awaits
its opening. -/
def Sys2Proof.Clauses.TimersParkTheHead : Prop :=
  ∀ s : State,
    let parked : Head := { s.head with
      state := .parked, mValid := false, sum := 0, count := 0, len := none, c := 16384, sat := false
      warmCounter := 0, warmTimer := none, parkTimer := none };
    (s.head.parkTimer.isSome = true → exec .parkTimerExpiry s = .next { s with head := parked }) ∧
    (s.head.state = .warming → s.head.warmTimer.isSome = true → s.job.fopenedDue = false → s.job.onStop = none →
      (s.job.state = .idle → exec .warmTimerExpiry s = .next (linkFinish s { s with head := parked })) ∧
      ∀ f, s.job.state = .opening → s.job.fiche = some f → f.outcome = none → s.intake.band = none →
        s.engine.state = .idle → s.engine.exposure = none → s.transport.card = .loaded →
        s.transport.inFlight = none → s.transport.pendingReq = none →
        exec .warmTimerExpiry s = .next (linkFinish s { s with
          head := parked
          job := { s.job with
            state := .ending, fiche := some { f with outcome := some .headNotReady, stack := some .reject } }
          intake := { s.intake with state := .pageIdle, contexts := [], orphan := none, store := [] }
          transport := { s.transport with
            card := .ejecting, inFlight := some { number := s.transport.nextNumber, motion := .eject .reject }
            timer := none, nextNumber := s.transport.nextNumber + 1, position := none } }))

/-- R108: the emitter bias enable on the head port. -/
def Sys2Proof.Clauses.BiasFollowsTheHeadState : Prop :=
  ∀ s : State, (s.emitterBias = true ↔ s.head.state = .warming ∨ s.head.state = .ready) ∧
    (s.emitterBias = false ↔ s.head.state = .parked)

/-- R15, R24, R108, R109, R113, R114, R125, R126, R129, R130, R131, R174: the head monitor at a pin, at a request for READY, at
the release of the pins and at its timers' expiry, and the emitter bias. -/
def Obligations.PinsAndTimersMoveTheHeadState : Prop :=
  Sys2Proof.Clauses.PinsRestartTheHeadMonitor ∧ Sys2Proof.Clauses.TimersParkTheHead
    ∧ Sys2Proof.Clauses.BiasFollowsTheHeadState

/-! ### Card transport -/

/-- R140, R146, R147, R148: what a request meets: sent, placed in the pending slot, joined, replacing, or discarded; and the
pending request at the end of a command. -/
def Sys2Proof.Clauses.MotionRequestsMeetTheSlot : Prop :=
  ∀ (m : Motion) (s : State),
    let sent : State := { s with transport := { s.transport with
      card := match m with
        | .load => .loading
        | .move _ _ _ => .moving
        | .eject _ => .ejecting
        | .home => .homing
      inFlight := some { number := s.transport.nextNumber, motion := m }
      timer := none, nextNumber := s.transport.nextNumber + 1, position := none } };
    let allowed : Prop := match m with
      | .load => s.transport.card = .empty
      | .move _ _ _ | .eject _ => s.transport.card = .loaded ∨ s.transport.card = .atCell
      | .home => True;
    let slot (t : State) : State := { t with transport := { t.transport with pendingReq := some m } };
    (m = .home → (s.transport.pendingReq = some .home ∨
        ∃ k, s.transport.inFlight = some { number := k, motion := .home }) → requestMotion m s = s) ∧
    (s.transport.inFlight = none → s.transport.pendingReq = none →
      (allowed → requestMotion m s = sent ∧
        takePending (slot s) = { sent with transport := { sent.transport with pendingReq := none } }) ∧
      (¬ allowed → requestMotion m s = s ∧ takePending (slot s) = s)) ∧
    (∀ k, s.transport.inFlight = some k → s.transport.pendingReq = none → (m = .home → k.motion ≠ .home) →
      requestMotion m s = slot s) ∧
    (∀ k q, s.transport.inFlight = some k → s.transport.pendingReq = some q →
      (m = .home → k.motion ≠ .home → q ≠ .home → requestMotion m s = slot s) ∧
      (m ≠ .home → requestMotion m s = s))

/-- R138, R140: the motion timer starts when the command's last character has been sent. -/
def Sys2Proof.Clauses.LastCharacterStartsTheTimer : Prop :=
  ∀ (s : State) (k : InFlight), s.transport.inFlight = some k → s.transport.timer = none →
    exec .lastCharacterSent s = .next { s with transport := { s.transport with
      timer := some (match k.motion with
        | .load => 4000
        | .move _ _ _ => 500
        | .eject _ => 4000
        | .home => 10000) } }

/-- R138, R140, R146, R147, R148: motion requests, the pending slot and the motion timer's start. -/
def Obligations.MotionCommandsAreRequestedAndTimed : Prop :=
  Sys2Proof.Clauses.MotionRequestsMeetTheSlot ∧ Sys2Proof.Clauses.LastCharacterStartsTheTimer

/-- R139: the replies and lines that are ignored. A received line that is a readable reply is taken as that reply (log 13, the
model's choice). -/
def Obligations.StrayRepliesAreIgnored : Prop :=
  ∀ (s : State) (n : CommandNumber) (code : ReplyCode) (line : List Byte),
    (s.transport.inFlight = none → exec (.done n) s = .next s ∧ exec (.fault n code) s = .next s) ∧
    (∀ k, s.transport.inFlight = some k → k.number ≠ n →
      exec (.done n) s = .next s ∧ exec (.fault n code) s = .next s) ∧
    (∀ k, s.transport.inFlight = some k → k.motion ≠ .load → exec (.fault n .noStock) s = .next s) ∧
    (readReply line = none → exec (.receivedLineIgnored line) s = .next s) ∧
    (32 < line.length → readReply line = none) ∧
    (readReply line = some (.done n) → exec (.receivedLineIgnored line) s = exec (.done n) s) ∧
    (readReply line = some (.fault n code) → exec (.receivedLineIgnored line) s = exec (.fault n code) s)

/-- R25, R28, R32, R140, R152, R153: the DONE of a HOME: the card is EMPTY, the fault code NONE, and an ENDING with no fiche
record, or a FAULTED job (log 31, the model's reading), returns to IDLE. -/
def Sys2Proof.Clauses.HomeDoneReturnsToIdle : Prop :=
  ∀ (s : State) (n : CommandNumber), s.transport.inFlight = some { number := n, motion := .home } →
    s.transport.pendingReq = none → s.job.fopenedDue = false → s.job.onStop = none → s.engine.state = .idle →
    s.engine.exposure = none →
    ((s.job.state = .ending ∧ s.job.fiche = none) ∨ s.job.state = .faulted) →
    exec (.done n) s = .next (linkFinish s (enterIdle { s with transport := { s.transport with
      card := .empty, inFlight := none, timer := none, position := none, faultCode := .noFault } }))

/-- R24, R25, R28, R31, R33, R140, R142, R151, R153, R156: the end of ENDING with a fiche record: the EJECT's DONE, the NO_STOCK
of a LOAD that was waited for, or the DONE of the HOME that a RESET SOFT of a FAULTED job requested. A stack that an eject
request or a fault set is kept, otherwise it becomes NONE; FCLOSED is composed where the fiche is not closed, the fiche
closed, the pins released and the job IDLE. -/
def Sys2Proof.Clauses.EndingCompletesWithFclosed : Prop :=
  ∀ (s : State) (c : Instr) (k : InFlight) (f : Fiche), s.transport.inFlight = some k →
    ((c = .done k.number ∧ ((∃ st, k.motion = .eject st) ∨ k.motion = .home)) ∨
      (c = .fault k.number .noStock ∧ k.motion = .load)) →
    s.transport.pendingReq = none → s.job.state = .ending → s.job.fiche = some f → s.job.fopenedDue = false →
    s.job.onStop = none → s.engine.state = .idle → s.engine.exposure = none →
    let g : Fiche := { f with stack := some (f.stack.getD .noStack) };
    let arrived : State := { s with transport := { s.transport with
      card := .empty, inFlight := none, timer := none, position := none
      faultCode := if k.motion = .home then .noFault else s.transport.faultCode } };
    (f.closed = true →
      exec c s = .next (linkFinish s (enterIdle { arrived with job := { s.job with fiche := some g } }))) ∧
    (f.closed = false → slotFree s .job = true →
      exec c s = .next (linkFinish s (enterIdle (Sys2Proof.Clauses.closedWithFclosed g arrived))))

/-- R14, R20, R24, R25, R28, R31 to R33, R63, R140, R142, R151 to R153, R156: the replies that return the job to IDLE. -/
def Obligations.RepliesReturnTheJobToIdle : Prop :=
  Sys2Proof.Clauses.FicheClosesWithFclosed ∧ Sys2Proof.Clauses.HomeDoneReturnsToIdle
    ∧ Sys2Proof.Clauses.EndingCompletesWithFclosed

/-- R137, R138: the characters of a command on the motion port: its word, its number, its fields, each after a single space, and
a line feed. A number is written in decimal without leading zeros. -/
def Sys2Proof.Clauses.CommandLinesAreWritten : Prop :=
  (∀ (n : CommandNumber) (cell x y : Nat) (st : EjectStack),
    let words (name : List Byte) (fields : List (List Byte)) : List Byte :=
      name ++ (fields.map fun w => (32 : Byte) :: w).flatten ++ [10];
    commandLine { number := n, motion := .load } = words [76, 79, 65, 68] [decimal n.toNat] ∧
    commandLine { number := n, motion := .move cell x y }
      = words [77, 79, 86, 69] [decimal n.toNat, decimal x, decimal y] ∧
    commandLine { number := n, motion := .eject st }
      = words [69, 74, 69, 67, 84] [decimal n.toNat, match st with
          | .accept => [65, 67, 67, 69, 80, 84]
          | .reject => [82, 69, 74, 69, 67, 84]] ∧
    commandLine { number := n, motion := .home } = words [72, 79, 77, 69] [decimal n.toNat]) ∧
  (∀ n : Nat, n ≤ 65535 →
    (decimal n).foldl (fun v b => 10 * v + (b.toNat - 48)) 0 = n ∧
    (∀ b ∈ decimal n, 48 ≤ b.toNat ∧ b.toNat ≤ 57) ∧ 1 ≤ (decimal n).length ∧ (decimal n).length ≤ 5 ∧
    (10 ≤ n → (decimal n).head? ≠ some 48)) ∧
  ∀ (n : CommandNumber) (cell x y : Nat), x ≤ 65535 → y ≤ 65535 →
    (commandLine { number := n, motion := .move cell x y }).length ≤ 21

/-- R189, R206: the bytes of a FRAME and of a CREDIT on the wire: the header with the credit count and the re-base mark in the
flags, each field of the FRAME at its place, and the check. -/
def Sys2Proof.Clauses.FrameReportsAreWritten : Prop :=
  (∀ t : Sending, t.credit ≤ 16 →
    t.flagsByte.toNat % 32 = t.credit ∧ (t.flagsByte.getLsbD 5 = t.rebase) ∧ t.flagsByte.toNat < 64) ∧
  (∀ (credit : Nat) (rebase : Bool) (r : FrameReport),
    let t : Sending := { report := .frame r, credit := credit, rebase := rebase };
    t.bytes? = some (frameBytes 132 t.flagsByte 0 (framePayload r))) ∧
  (∀ (credit : Nat) (rebase : Bool),
    let t : Sending := { report := .credit, credit := credit, rebase := rebase };
    t.bytes? = some (frameBytes 130 t.flagsByte 0 []) ∧ (frameBytes 130 t.flagsByte 0 []).length = 12) ∧
  ∀ r : FrameReport, r.cell ≤ 419 → r.holdCount ≤ 255 → (r.key.getD []).length ≤ 24 → r.linesExposed ≤ 3072 →
    r.linesFlooded ≤ 3072 → r.a ≤ 51532529664 → r.p ≤ 51532529664 → r.mMin ≤ 65535 → r.mMax ≤ 65535 →
    let b := framePayload r;
    b.length = 30 + (r.key.getD []).length ∧
    numberAt b 0 4 = r.seq.toNat ∧ numberAt b 4 2 = r.cell ∧
    byteAt b 6 = (match r.kind with
      | .title => 0
      | .data => 1
      | .index => 2) ∧
    (r.final = .exposed → byteAt b 7 = 3) ∧ (r.final = .exposedFault → byteAt b 7 = 4) ∧
    (r.final = .void → byteAt b 7 = 5) ∧
    (∀ k < 16, (numberAt b 8 2).testBit k = (([r.flags.intake.cropped, r.flags.intake.short, r.flags.intake.long,
        r.flags.intake.gap, r.flags.intake.dup, r.flags.intake.noEnd, r.flags.engine.held, r.flags.engine.pulseClamp,
        r.flags.engine.corrSat, r.flags.engine.limit, r.flags.engine.dose] : List Bool).getD k false)) ∧
    byteAt b 10 = r.holdCount ∧ byteAt b 11 = (r.key.getD []).length ∧ numberAt b 12 2 = r.linesExposed ∧
    numberAt b 14 2 = r.linesFlooded ∧ numberAt b 16 5 = r.a ∧ numberAt b 21 5 = r.p ∧ numberAt b 26 2 = r.mMin ∧
    numberAt b 28 2 = r.mMax ∧ b.drop 30 = r.key.getD []

/-- R73, R74, R137, R138, R189, R206: what stands on the ports: the motion port's command line, the bytes of a FRAME and of a
CREDIT, and dark emitters while no line is driven. -/
def Obligations.OutputsAreWrittenAsGiven : Prop :=
  Sys2Proof.Clauses.CommandLinesAreWritten ∧ Sys2Proof.Clauses.FrameReportsAreWritten
    ∧ ∀ s : State, s.engine.driven = none → s.headPortWidths = List.replicate 2048 0

/-! ### Tables and queries -/

/-- R159, R160: the layouts that pass their checks. -/
def Sys2Proof.Clauses.LayoutsThatPass : Prop :=
  ∀ l : Layout, l.ok = true ↔
    (1 ≤ l.rows ∧ l.rows ≤ 16) ∧ (1 ≤ l.columns ∧ l.columns ≤ 32) ∧ (64 ≤ l.wc ∧ l.wc ≤ 2048) ∧
    (64 ≤ l.hc ∧ l.hc ≤ 3072) ∧ l.originX ≤ 65535 ∧ l.originY ≤ 65535 ∧ (1 ≤ l.pitchX ∧ l.pitchX ≤ 65535) ∧
    (1 ≤ l.pitchY ∧ l.pitchY ≤ 65535) ∧ l.indexCells ≤ 4 ∧ l.rows * l.columns ≤ 420 ∧
    l.originX + (l.columns - 1) * l.pitchX ≤ 65535 ∧ l.originY + (l.rows - 1) * l.pitchY ≤ 65535 ∧
    (l.titleRow = true → 2 ≤ l.rows) ∧ l.indexCells ≤ l.columns ∧
    (if l.titleRow = true then l.columns else 0) + l.indexCells < l.rows * l.columns

/-- R163, R164: the profiles that pass their checks. -/
def Sys2Proof.Clauses.ProfilesThatPass : Prop :=
  ∀ p : Profile, p.ok = true ↔
    p.layout ≤ 7 ∧ p.curve ≤ 3 ∧ (256 ≤ p.linePeriod ∧ p.linePeriod ≤ 8191) ∧
    (1 ≤ p.pulseMax ∧ (p.pulseMax : Int) ≤ (p.linePeriod : Int) - 32) ∧ p.voidPulse ≤ p.pulseMax ∧ p.fillGray ≤ 255 ∧
    p.holdLimit ≤ 1000 ∧ (1 ≤ p.mRef ∧ p.mRef ≤ 65535) ∧ p.overLimit ≤ 65535 ∧ p.underLimit ≤ 65535 ∧
    p.averaging ∈ [1, 4, 16, 64] ∧ (1 ≤ p.doseTolerance ∧ p.doseTolerance ≤ 500) ∧
    (1 ≤ p.warmCount ∧ p.warmCount ≤ 255) ∧ p.maxVoids ≤ 15 ∧ p.underLimit < p.overLimit

/-- R158, R159, R161 to R163, R165, R167, R171, R187: the payloads of a TWRITE and a TREAD whose table, entry, length and coded
fields are readable. -/
def Sys2Proof.Clauses.TablePayloadsThatRead : Prop :=
  (∀ (p : List Byte) (sel : TableSel) (n : Nat), readEntry p = some (sel, n) ↔
    2 ≤ p.length ∧ byteAt p 1 = n ∧
      ((sel = .layout ∧ byteAt p 0 = 0 ∧ n ≤ 7) ∨ (sel = .curve ∧ byteAt p 0 = 1 ∧ n ≤ 3) ∨
        (sel = .profile ∧ byteAt p 0 = 2 ∧ n ≤ 7) ∨ (sel = .unit ∧ byteAt p 0 = 3 ∧ n = 0))) ∧
  (∀ (p : List Byte) (sel : TableSel) (n offset : Nat), judgeTread p = some (sel, n, offset) ↔
    p.length = 3 ∧ readEntry p = some (sel, n) ∧ offset = byteAt p 2 ∧
      (sel = .curve → offset ∈ [0, 64, 128, 192])) ∧
  (∀ c : List Byte, (readLayout c).isSome = true ↔ c.length = 17 ∧ byteAt c 14 ≤ 1 ∧ byteAt c 16 ≤ 1) ∧
  (∀ c : List Byte, (readProfile c).isSome = true ↔
    c.length = 27 ∧ byteAt c 9 ≤ 1 ∧ byteAt c 14 ≤ 1 ∧ byteAt c 20 ≤ 1 ∧ byteAt c 21 ≤ 1 ∧ byteAt c 26 ≤ 1) ∧
  (∀ c : List Byte, (readQuarter c).isSome = true ↔
    c.length = 130 ∧ byteAt c 0 ∈ [0, 64, 128, 192] ∧ byteAt c 1 = 64 ∧ ∀ i < 64, numberAt c (2 + 2 * i) 2 ≤ 8191) ∧
  ∀ c : List Byte, (readUnit c).isSome = true ↔ c.length = 2 ∧ byteAt c 1 ≤ 1

/-- R40, R187, R206: the PHEADs that pass their checks, and the fields read from them. -/
def Sys2Proof.Clauses.PheadsThatPass : Prop :=
  ∀ p : List Byte,
    ((readPhead p).isSome = true ↔
      10 ≤ p.length ∧ p.length = 10 + byteAt p 3 ∧ byteAt p 0 ≤ 1 ∧
      (1 ≤ numberAt p 6 2 ∧ numberAt p 6 2 ≤ 4096) ∧ (1 ≤ numberAt p 8 2 ∧ numberAt p 8 2 ≤ 6144) ∧
      (byteAt p 1 = 1 ∨ byteAt p 1 = 8) ∧ (byteAt p 2 = 1 ∨ byteAt p 2 = 2) ∧ byteAt p 3 ≤ 24 ∧
      (byteAt p 2 = 2 → 2 ≤ numberAt p 6 2 ∧ 2 ≤ numberAt p 8 2)) ∧
    ∀ f, readPhead p = some f →
      f.w = numberAt p 6 2 ∧ f.h = numberAt p 8 2 ∧ f.depth = byteAt p 1 ∧ f.d = byteAt p 2 ∧
      f.target = (if byteAt p 0 = 0 then .next else .explicit (numberAt p 4 2)) ∧
      f.key = (if byteAt p 3 = 0 then none else some (p.drop 10))

/-- R40, R158 to R165, R167 check 1, R171, R187: what the field checks accept, and so what they refuse. -/
def Obligations.FieldChecksAcceptTheRanges : Prop :=
  Sys2Proof.Clauses.LayoutsThatPass ∧ Sys2Proof.Clauses.ProfilesThatPass
    ∧ Sys2Proof.Clauses.TablePayloadsThatRead ∧ Sys2Proof.Clauses.PheadsThatPass

/-- R158, R160 to R162, R164, R167 to R169, R176: a TWRITE that passes its checks writes its entry whole and is answered by
TDONE. -/
def Sys2Proof.Clauses.TwriteWritesTheEntryWhole : Prop :=
  ∀ (s : State) (r : Record) (sel : TableSel) (n : Nat), headRecord .twrite s = some r →
    slotFree s .tables = true → s.job.onStop ≠ some .resetFull → readEntry r.payload = some (sel, n) →
    s.tables.pinned sel n = false →
    let taken (t : Tables) (w : WrittenEntry) : Prop :=
      exec .twrite s = .next (linkFinish s (removeHead { composeSlot .tables
        (.tdone { tag := r.tag, table := sel, entry := n, written := w }) s with tables := t }));
    (∀ l, sel = .layout → readLayout (r.payload.drop 2) = some l → l.ok = true →
      taken { s.tables with layouts := s.tables.layouts.set n { valid := true, fields := l } }
        (.layout true l.dataCells)) ∧
    (∀ q, sel = .curve → readQuarter (r.payload.drop 2) = some q →
      let old := s.tables.curveEntry n;
      let new : CurveEntry :=
        { values := old.values.take q.offset ++ q.values ++ old.values.drop (q.offset + 64)
          written :=
            { q0 := old.written.q0 || q.offset == 0, q64 := old.written.q64 || q.offset == 64
              q128 := old.written.q128 || q.offset == 128, q192 := old.written.q192 || q.offset == 192 } };
      taken { s.tables with curves := s.tables.curves.set n new }
        (.curve q.offset new.written
          (new.written.q0 && new.written.q64 && new.written.q128 && new.written.q192))) ∧
    (∀ p, sel = .profile → readProfile (r.payload.drop 2) = some p → p.ok = true → n < s.tables.profiles.length →
      taken { s.tables with profiles := s.tables.profiles.set n { valid := true, fields := p } }
        (.profile true ((s.tables.layoutEntry p.layout).valid && (s.tables.curveEntry p.curve).valid))) ∧
    (∀ u, sel = .unit → readUnit (r.payload.drop 2) = some u → taken { s.tables with unit := u } .unit)

/-- R167, R179, R196: the refusals of TWRITE in their order, and its waits. -/
def Sys2Proof.Clauses.TwriteRefusalsInOrder : Prop :=
  ∀ (s : State) (r : Record), headRecord .twrite s = some r →
    ((slotFree s .tables = false ∨ s.job.onStop = some .resetFull) → exec .twrite s = .next s) ∧
    (slotFree s .tables = true → s.job.onStop ≠ some .resetFull →
      (readEntry r.payload = none → exec .twrite s = .next (linkFinish s (refuse .tables r .badField s))) ∧
      ∀ sel n, readEntry r.payload = some (sel, n) →
        (s.tables.pinned sel n = true →
          exec .twrite s = .next (linkFinish s (refuse .tables r .tableInUse s))) ∧
        (s.tables.pinned sel n = false →
          ((sel = .layout ∧ ∀ l, readLayout (r.payload.drop 2) = some l → l.ok = false) ∨
            (sel = .curve ∧ readQuarter (r.payload.drop 2) = none) ∨
            (sel = .profile ∧ ∀ p, readProfile (r.payload.drop 2) = some p → p.ok = false) ∨
            (sel = .unit ∧ readUnit (r.payload.drop 2) = none)) →
          exec .twrite s = .next (linkFinish s (refuse .tables r .badField s))))

/-- R158, R160 to R162, R164, R167 to R169, R176, R179, R196: the judgement of a TWRITE. -/
def Obligations.TwriteIsTakenWholeOrRefused : Prop :=
  Sys2Proof.Clauses.TwriteWritesTheEntryWhole ∧ Sys2Proof.Clauses.TwriteRefusalsInOrder

/-- R171, R172, R187: a TREAD is refused BAD_FIELD, or answered by TDATA with the entry as it stands; no entry changes. -/
def Sys2Proof.Clauses.TreadReadsTheEntry : Prop :=
  ∀ (s : State) (r : Record), headRecord .tread s = some r → slotFree s .tables = true →
    s.job.onStop ≠ some .resetFull →
    (judgeTread r.payload = none → exec .tread s = .next (linkFinish s (refuse .tables r .badField s))) ∧
    ∀ sel n offset, judgeTread r.payload = some (sel, n, offset) →
      exec .tread s = .next (linkFinish s (removeHead (composeSlot .tables (.tdata
        { tag := r.tag, table := sel, entry := n
          contents := match sel with
            | .layout => .layout (s.tables.layoutEntry n).valid (s.tables.pinned .layout n) (s.tables.layoutEntry n).fields
            | .curve =>
              .curve (s.tables.curveEntry n).valid (s.tables.pinned .curve n) offset
                (((s.tables.curveEntry n).values.drop offset).take 64) (s.tables.curveEntry n).written
            | .profile =>
              .profile (s.tables.profileEntry n).valid (s.tables.pinned .profile n) (s.tables.profileEntry n).fields
            | .unit => .unit s.tables.unit }) s)))

/-- R120, R121, R201, R203, R204: a QSTAT is taken in every job state; its STAT shows the values from before the clear. -/
def Sys2Proof.Clauses.QstatAnswersWithStat : Prop :=
  ∀ (s : State) (r : Record), headRecord .qstat s = some r → slotFree s .status = true →
    let map : List Cell := match s.job.fiche with
      | some f => f.map
      | none => [];
    let u := composeSlot .status (.stat
      { tag := r.tag, linkState := s.link.state, jobState := s.job.state, engineState := s.engine.state
        headState := s.head.state, card := s.transport.card, faultCode := s.transport.faultCode
        seq := match s.job.fiche with
          | some f => f.seq
          | none => 0
        counts :=
          { cells := map.length, free := countCells map .free, assigned := countCells map .assigned
            exposing := countCells map .exposing, exposed := countCells map .exposed
            exposedFault := countCells map .exposedFault, void := countCells map .void }
        voidCount := match s.job.fiche with
          | some f => f.voidCount
          | none => 0
        mAvg := s.head.mAvg, mValid := s.head.mValid, c := s.head.c, overActive := s.head.overActive
        underActive := s.head.underActive, overflow := s.link.overflow, lastRefusal := s.link.lastRefusal }) s;
    (r.flags.getLsbD 0 = false → exec .qstat s = .next (linkFinish s (removeHead u))) ∧
    (r.flags.getLsbD 0 = true → exec .qstat s = .next (linkFinish s (removeHead { u with
      head := { s.head with overActive := false, underActive := false }
      link := { u.link with overflow := false } })))

/-- R120, R121, R171, R172, R187, R201, R203, R204: TREAD and QSTAT. -/
def Obligations.QueriesAreAnswered : Prop :=
  Sys2Proof.Clauses.TreadReadsTheEntry ∧ Sys2Proof.Clauses.QstatAnswersWithStat
end

