-- ==== Sys2Proof/Laws/State.lean ====
section
/-!
SUPPORT. One lemma per field per update of State, true by unfolding.
-/

namespace Sys2Proof.Machine

variable (s : State)

@[simp] theorem State.setLink_link (x : Link) : (s.setLink x).link = x := rfl
@[simp] theorem State.setLink_job (x : Link) : (s.setLink x).job = s.job := rfl
@[simp] theorem State.setLink_tables (x : Link) : (s.setLink x).tables = s.tables := rfl
@[simp] theorem State.setLink_intake (x : Link) : (s.setLink x).intake = s.intake := rfl
@[simp] theorem State.setLink_engine (x : Link) : (s.setLink x).engine = s.engine := rfl
@[simp] theorem State.setLink_head (x : Link) : (s.setLink x).head = s.head := rfl
@[simp] theorem State.setLink_transport (x : Link) : (s.setLink x).transport = s.transport := rfl
@[simp] theorem State.setLink_pending (x : Link) : (s.setLink x).pending = s.pending := rfl

@[simp] theorem State.setJob_link (x : Job) : (s.setJob x).link = s.link := rfl
@[simp] theorem State.setJob_job (x : Job) : (s.setJob x).job = x := rfl
@[simp] theorem State.setJob_tables (x : Job) : (s.setJob x).tables = s.tables := rfl
@[simp] theorem State.setJob_intake (x : Job) : (s.setJob x).intake = s.intake := rfl
@[simp] theorem State.setJob_engine (x : Job) : (s.setJob x).engine = s.engine := rfl
@[simp] theorem State.setJob_head (x : Job) : (s.setJob x).head = s.head := rfl
@[simp] theorem State.setJob_transport (x : Job) : (s.setJob x).transport = s.transport := rfl
@[simp] theorem State.setJob_pending (x : Job) : (s.setJob x).pending = s.pending := rfl

@[simp] theorem State.setTables_link (x : Tables) : (s.setTables x).link = s.link := rfl
@[simp] theorem State.setTables_job (x : Tables) : (s.setTables x).job = s.job := rfl
@[simp] theorem State.setTables_tables (x : Tables) : (s.setTables x).tables = x := rfl
@[simp] theorem State.setTables_intake (x : Tables) : (s.setTables x).intake = s.intake := rfl
@[simp] theorem State.setTables_engine (x : Tables) : (s.setTables x).engine = s.engine := rfl
@[simp] theorem State.setTables_head (x : Tables) : (s.setTables x).head = s.head := rfl
@[simp] theorem State.setTables_transport (x : Tables) : (s.setTables x).transport = s.transport := rfl
@[simp] theorem State.setTables_pending (x : Tables) : (s.setTables x).pending = s.pending := rfl

@[simp] theorem State.setIntake_link (x : Intake) : (s.setIntake x).link = s.link := rfl
@[simp] theorem State.setIntake_job (x : Intake) : (s.setIntake x).job = s.job := rfl
@[simp] theorem State.setIntake_tables (x : Intake) : (s.setIntake x).tables = s.tables := rfl
@[simp] theorem State.setIntake_intake (x : Intake) : (s.setIntake x).intake = x := rfl
@[simp] theorem State.setIntake_engine (x : Intake) : (s.setIntake x).engine = s.engine := rfl
@[simp] theorem State.setIntake_head (x : Intake) : (s.setIntake x).head = s.head := rfl
@[simp] theorem State.setIntake_transport (x : Intake) : (s.setIntake x).transport = s.transport := rfl
@[simp] theorem State.setIntake_pending (x : Intake) : (s.setIntake x).pending = s.pending := rfl

@[simp] theorem State.setEngine_link (x : Engine) : (s.setEngine x).link = s.link := rfl
@[simp] theorem State.setEngine_job (x : Engine) : (s.setEngine x).job = s.job := rfl
@[simp] theorem State.setEngine_tables (x : Engine) : (s.setEngine x).tables = s.tables := rfl
@[simp] theorem State.setEngine_intake (x : Engine) : (s.setEngine x).intake = s.intake := rfl
@[simp] theorem State.setEngine_engine (x : Engine) : (s.setEngine x).engine = x := rfl
@[simp] theorem State.setEngine_head (x : Engine) : (s.setEngine x).head = s.head := rfl
@[simp] theorem State.setEngine_transport (x : Engine) : (s.setEngine x).transport = s.transport := rfl
@[simp] theorem State.setEngine_pending (x : Engine) : (s.setEngine x).pending = s.pending := rfl

@[simp] theorem State.setHead_link (x : Head) : (s.setHead x).link = s.link := rfl
@[simp] theorem State.setHead_job (x : Head) : (s.setHead x).job = s.job := rfl
@[simp] theorem State.setHead_tables (x : Head) : (s.setHead x).tables = s.tables := rfl
@[simp] theorem State.setHead_intake (x : Head) : (s.setHead x).intake = s.intake := rfl
@[simp] theorem State.setHead_engine (x : Head) : (s.setHead x).engine = s.engine := rfl
@[simp] theorem State.setHead_head (x : Head) : (s.setHead x).head = x := rfl
@[simp] theorem State.setHead_transport (x : Head) : (s.setHead x).transport = s.transport := rfl
@[simp] theorem State.setHead_pending (x : Head) : (s.setHead x).pending = s.pending := rfl

@[simp] theorem State.setTransport_link (x : Transport) : (s.setTransport x).link = s.link := rfl
@[simp] theorem State.setTransport_job (x : Transport) : (s.setTransport x).job = s.job := rfl
@[simp] theorem State.setTransport_tables (x : Transport) : (s.setTransport x).tables = s.tables := rfl
@[simp] theorem State.setTransport_intake (x : Transport) : (s.setTransport x).intake = s.intake := rfl
@[simp] theorem State.setTransport_engine (x : Transport) : (s.setTransport x).engine = s.engine := rfl
@[simp] theorem State.setTransport_head (x : Transport) : (s.setTransport x).head = s.head := rfl
@[simp] theorem State.setTransport_transport (x : Transport) : (s.setTransport x).transport = x := rfl
@[simp] theorem State.setTransport_pending (x : Transport) : (s.setTransport x).pending = s.pending := rfl

@[simp] theorem State.setFiche_link (f : Fiche) : (s.setFiche f).link = s.link := rfl
@[simp] theorem State.setFiche_job (f : Fiche) : (s.setFiche f).job = { s.job with fiche := some f } := rfl
@[simp] theorem State.setFiche_tables (f : Fiche) : (s.setFiche f).tables = s.tables := rfl
@[simp] theorem State.setFiche_intake (f : Fiche) : (s.setFiche f).intake = s.intake := rfl
@[simp] theorem State.setFiche_engine (f : Fiche) : (s.setFiche f).engine = s.engine := rfl
@[simp] theorem State.setFiche_head (f : Fiche) : (s.setFiche f).head = s.head := rfl
@[simp] theorem State.setFiche_transport (f : Fiche) : (s.setFiche f).transport = s.transport := rfl
@[simp] theorem State.setFiche_pending (f : Fiche) : (s.setFiche f).pending = s.pending := rfl

/-! ### What is read of a state depends on one block -/

theorem State.linkUp_eq {s t : State} (h : t.link = s.link) : t.linkUp = s.linkUp := by simp [State.linkUp, h]

theorem State.profile_eq {s t : State} (h : t.tables = s.tables) : t.profile = s.profile := by simp [State.profile, h]

theorem State.layout_eq {s t : State} (h : t.tables = s.tables) : t.layout = s.layout := by simp [State.layout, h]

theorem State.curve_eq {s t : State} (h : t.tables = s.tables) : t.curve = s.curve := by simp [State.curve, h]

end Sys2Proof.Machine
end

