-- ==== Sys2Proof/Laws/Frames.lean ====
section
/-!
SUPPORT. The frame of each shared operation of Ops and HeadOps: the blocks and fields it leaves as they were.
-/

namespace Sys2Proof.Machine

@[simp] theorem placeReport_frame (r : Report) (s : State) :
    (placeReport r s).job = s.job ∧ (placeReport r s).tables = s.tables ∧ (placeReport r s).intake = s.intake ∧
    (placeReport r s).engine = s.engine ∧ (placeReport r s).head = s.head ∧ (placeReport r s).transport =
    s.transport ∧ (placeReport r s).pending = s.pending ∧ (placeReport r s).link.state = s.link.state ∧
    (placeReport r s).link.inbound = s.link.inbound ∧ (placeReport r s).link.windowOpen = s.link.windowOpen ∧
    (placeReport r s).link.inTransmission = s.link.inTransmission ∧ (placeReport r s).link.lastRefusal =
    s.link.lastRefusal ∧ (placeReport r s).link.counter = s.link.counter ∧ (placeReport r s).link.slots =
    s.link.slots ∧ (placeReport r s).link.overflow = s.link.overflow := by
  unfold placeReport
  simp

@[simp] theorem composeSlot_frame (p : Producer) (r : Report) (s : State) :
    (composeSlot p r s).job = s.job ∧ (composeSlot p r s).tables = s.tables ∧ (composeSlot p r s).intake =
    s.intake ∧ (composeSlot p r s).engine = s.engine ∧ (composeSlot p r s).head = s.head ∧ (composeSlot p r
    s).transport = s.transport ∧ (composeSlot p r s).pending = s.pending ∧ (composeSlot p r s).link.state =
    s.link.state ∧ (composeSlot p r s).link.inbound = s.link.inbound ∧ (composeSlot p r s).link.windowOpen =
    s.link.windowOpen ∧ (composeSlot p r s).link.inTransmission = s.link.inTransmission ∧ (composeSlot p r
    s).link.lastRefusal = s.link.lastRefusal ∧ (composeSlot p r s).link.counter = s.link.counter ∧ (composeSlot p
    r s).link.overflow = s.link.overflow := by
  unfold composeSlot
  (repeat' split) <;> simp

@[simp] theorem composeDiscard_frame (r : Report) (s : State) :
    (composeDiscard r s).job = s.job ∧ (composeDiscard r s).tables = s.tables ∧ (composeDiscard r s).intake =
    s.intake ∧ (composeDiscard r s).engine = s.engine ∧ (composeDiscard r s).head = s.head ∧ (composeDiscard r
    s).transport = s.transport ∧ (composeDiscard r s).pending = s.pending ∧ (composeDiscard r s).link.state =
    s.link.state ∧ (composeDiscard r s).link.inbound = s.link.inbound ∧ (composeDiscard r s).link.windowOpen =
    s.link.windowOpen ∧ (composeDiscard r s).link.inTransmission = s.link.inTransmission ∧ (composeDiscard r
    s).link.lastRefusal = s.link.lastRefusal ∧ (composeDiscard r s).link.counter = s.link.counter ∧
    (composeDiscard r s).link.slots = s.link.slots := by
  unfold composeDiscard
  (repeat' split) <;> simp

@[simp] theorem raiseCounter_frame (n : Nat) (s : State) :
    (raiseCounter n s).job = s.job ∧ (raiseCounter n s).tables = s.tables ∧ (raiseCounter n s).intake = s.intake ∧
    (raiseCounter n s).engine = s.engine ∧ (raiseCounter n s).head = s.head ∧ (raiseCounter n s).transport =
    s.transport ∧ (raiseCounter n s).pending = s.pending ∧ (raiseCounter n s).link.state = s.link.state ∧
    (raiseCounter n s).link.inbound = s.link.inbound ∧ (raiseCounter n s).link.windowOpen = s.link.windowOpen ∧
    (raiseCounter n s).link.inTransmission = s.link.inTransmission ∧ (raiseCounter n s).link.lastRefusal =
    s.link.lastRefusal ∧ (raiseCounter n s).link.reports = s.link.reports ∧ (raiseCounter n s).link.slots =
    s.link.slots ∧ (raiseCounter n s).link.overflow = s.link.overflow := by
  unfold raiseCounter
  simp

@[simp] theorem removeHead_frame (s : State) :
    (removeHead s).job = s.job ∧ (removeHead s).tables = s.tables ∧ (removeHead s).engine = s.engine ∧ (removeHead
    s).head = s.head ∧ (removeHead s).transport = s.transport ∧ (removeHead s).pending = s.pending ∧ (removeHead
    s).link.state = s.link.state ∧ (removeHead s).link.windowOpen = s.link.windowOpen ∧ (removeHead
    s).link.inTransmission = s.link.inTransmission ∧ (removeHead s).link.lastRefusal = s.link.lastRefusal ∧
    (removeHead s).link.reports = s.link.reports ∧ (removeHead s).link.slots = s.link.slots ∧ (removeHead
    s).link.overflow = s.link.overflow ∧ (removeHead s).intake.state = s.intake.state ∧ (removeHead
    s).intake.contexts = s.intake.contexts ∧ (removeHead s).intake.orphan = s.intake.orphan ∧ (removeHead
    s).intake.store = s.intake.store := by
  unfold removeHead
  simp

@[simp] theorem flushInbound_frame (s : State) :
    (flushInbound s).job = s.job ∧ (flushInbound s).tables = s.tables ∧ (flushInbound s).engine = s.engine ∧
    (flushInbound s).head = s.head ∧ (flushInbound s).transport = s.transport ∧ (flushInbound s).pending =
    s.pending ∧ (flushInbound s).link.state = s.link.state ∧ (flushInbound s).link.windowOpen = s.link.windowOpen
    ∧ (flushInbound s).link.inTransmission = s.link.inTransmission ∧ (flushInbound s).link.lastRefusal =
    s.link.lastRefusal ∧ (flushInbound s).link.reports = s.link.reports ∧ (flushInbound s).link.slots =
    s.link.slots ∧ (flushInbound s).link.overflow = s.link.overflow ∧ (flushInbound s).intake.state =
    s.intake.state ∧ (flushInbound s).intake.contexts = s.intake.contexts ∧ (flushInbound s).intake.orphan =
    s.intake.orphan ∧ (flushInbound s).intake.store = s.intake.store := by
  unfold flushInbound
  simp

@[simp] theorem refuse_frame (p : Producer) (r : Record) (code : RefusalCode) (s : State) :
    (refuse p r code s).job = s.job ∧ (refuse p r code s).tables = s.tables ∧ (refuse p r code s).engine =
    s.engine ∧ (refuse p r code s).head = s.head ∧ (refuse p r code s).transport = s.transport ∧ (refuse p r code
    s).pending = s.pending ∧ (refuse p r code s).link.state = s.link.state ∧ (refuse p r code s).link.windowOpen =
    s.link.windowOpen ∧ (refuse p r code s).link.inTransmission = s.link.inTransmission ∧ (refuse p r code
    s).link.overflow = s.link.overflow ∧ (refuse p r code s).intake.state = s.intake.state ∧ (refuse p r code
    s).intake.contexts = s.intake.contexts ∧ (refuse p r code s).intake.orphan = s.intake.orphan ∧ (refuse p r
    code s).intake.store = s.intake.store := by
  unfold refuse
  simp

@[simp] theorem dropFrame_frame (e : LinkErrReport) (credit : Bool) (s : State) :
    (dropFrame e credit s).job = s.job ∧ (dropFrame e credit s).tables = s.tables ∧ (dropFrame e credit s).intake
    = s.intake ∧ (dropFrame e credit s).engine = s.engine ∧ (dropFrame e credit s).head = s.head ∧ (dropFrame e
    credit s).transport = s.transport ∧ (dropFrame e credit s).pending = s.pending ∧ (dropFrame e credit
    s).link.state = s.link.state ∧ (dropFrame e credit s).link.inbound = s.link.inbound ∧ (dropFrame e credit
    s).link.windowOpen = s.link.windowOpen ∧ (dropFrame e credit s).link.inTransmission = s.link.inTransmission ∧
    (dropFrame e credit s).link.lastRefusal = s.link.lastRefusal ∧ (dropFrame e credit s).link.slots =
    s.link.slots := by
  unfold dropFrame
  cases credit <;> simp

@[simp] theorem creditIfDue_frame (c0 : Nat) (s : State) :
    (creditIfDue c0 s).job = s.job ∧ (creditIfDue c0 s).tables = s.tables ∧ (creditIfDue c0 s).intake = s.intake ∧
    (creditIfDue c0 s).engine = s.engine ∧ (creditIfDue c0 s).head = s.head ∧ (creditIfDue c0 s).transport =
    s.transport ∧ (creditIfDue c0 s).pending = s.pending ∧ (creditIfDue c0 s).link.state = s.link.state ∧
    (creditIfDue c0 s).link.inbound = s.link.inbound ∧ (creditIfDue c0 s).link.windowOpen = s.link.windowOpen ∧
    (creditIfDue c0 s).link.inTransmission = s.link.inTransmission ∧ (creditIfDue c0 s).link.lastRefusal =
    s.link.lastRefusal ∧ (creditIfDue c0 s).link.counter = s.link.counter ∧ (creditIfDue c0 s).link.slots =
    s.link.slots ∧ (creditIfDue c0 s).link.overflow = s.link.overflow := by
  unfold creditIfDue
  (repeat' split) <;> simp

@[simp] theorem beginTransmission_frame (s : State) :
    (beginTransmission s).job = s.job ∧ (beginTransmission s).tables = s.tables ∧ (beginTransmission s).intake =
    s.intake ∧ (beginTransmission s).engine = s.engine ∧ (beginTransmission s).head = s.head ∧ (beginTransmission
    s).transport = s.transport ∧ (beginTransmission s).pending = s.pending ∧ (beginTransmission s).link.state =
    s.link.state ∧ (beginTransmission s).link.inbound = s.link.inbound ∧ (beginTransmission s).link.slots =
    s.link.slots ∧ (beginTransmission s).link.overflow = s.link.overflow ∧ (beginTransmission s).link.lastRefusal
    = s.link.lastRefusal := by
  unfold beginTransmission
  (repeat' split) <;> simp

@[simp] theorem linkFinish_frame (s0 : State) (s : State) :
    (linkFinish s0 s).job = s.job ∧ (linkFinish s0 s).tables = s.tables ∧ (linkFinish s0 s).intake = s.intake ∧
    (linkFinish s0 s).engine = s.engine ∧ (linkFinish s0 s).head = s.head ∧ (linkFinish s0 s).transport =
    s.transport ∧ (linkFinish s0 s).pending = s.pending ∧ (linkFinish s0 s).link.state = s.link.state ∧
    (linkFinish s0 s).link.inbound = s.link.inbound ∧ (linkFinish s0 s).link.slots = s.link.slots ∧ (linkFinish s0
    s).link.overflow = s.link.overflow ∧ (linkFinish s0 s).link.lastRefusal = s.link.lastRefusal := by
  unfold linkFinish
  simp

@[simp] theorem assignCell_frame (cell : Nat) (key : Option (List Byte)) (s : State) :
    (assignCell cell key s).link = s.link ∧ (assignCell cell key s).tables = s.tables ∧ (assignCell cell key
    s).intake = s.intake ∧ (assignCell cell key s).engine = s.engine ∧ (assignCell cell key s).head = s.head ∧
    (assignCell cell key s).transport = s.transport ∧ (assignCell cell key s).pending = s.pending ∧ (assignCell
    cell key s).job.state = s.job.state ∧ (assignCell cell key s).job.fopenedDue = s.job.fopenedDue ∧ (assignCell
    cell key s).job.onStop = s.job.onStop := by
  unfold assignCell
  (repeat' split) <;> simp

@[simp] theorem startCell_frame (cell : Nat) (s : State) :
    (startCell cell s).link = s.link ∧ (startCell cell s).tables = s.tables ∧ (startCell cell s).intake = s.intake
    ∧ (startCell cell s).engine = s.engine ∧ (startCell cell s).head = s.head ∧ (startCell cell s).transport =
    s.transport ∧ (startCell cell s).pending = s.pending ∧ (startCell cell s).job.state = s.job.state ∧ (startCell
    cell s).job.fopenedDue = s.job.fopenedDue ∧ (startCell cell s).job.onStop = s.job.onStop := by
  unfold startCell
  (repeat' split) <;> simp

@[simp] theorem recordResult_frame (cell : Nat) (old : CellState) (r : FrameResult) (s : State) :
    (recordResult cell old r s).link = s.link ∧ (recordResult cell old r s).tables = s.tables ∧ (recordResult cell
    old r s).intake = s.intake ∧ (recordResult cell old r s).engine = s.engine ∧ (recordResult cell old r s).head
    = s.head ∧ (recordResult cell old r s).transport = s.transport ∧ (recordResult cell old r s).pending =
    s.pending ∧ (recordResult cell old r s).job.state = s.job.state ∧ (recordResult cell old r s).job.fopenedDue =
    s.job.fopenedDue ∧ (recordResult cell old r s).job.onStop = s.job.onStop := by
  unfold recordResult
  (repeat' split) <;> simp

@[simp] theorem sendMotion_frame (m : Motion) (s : State) :
    (sendMotion m s).link = s.link ∧ (sendMotion m s).job = s.job ∧ (sendMotion m s).tables = s.tables ∧
    (sendMotion m s).intake = s.intake ∧ (sendMotion m s).engine = s.engine ∧ (sendMotion m s).head = s.head ∧
    (sendMotion m s).pending = s.pending ∧ (sendMotion m s).transport.faultCode = s.transport.faultCode := by
  unfold sendMotion
  simp

@[simp] theorem sendOrDiscard_frame (m : Motion) (s : State) :
    (sendOrDiscard m s).link = s.link ∧ (sendOrDiscard m s).job = s.job ∧ (sendOrDiscard m s).tables = s.tables ∧
    (sendOrDiscard m s).intake = s.intake ∧ (sendOrDiscard m s).engine = s.engine ∧ (sendOrDiscard m s).head =
    s.head ∧ (sendOrDiscard m s).pending = s.pending ∧ (sendOrDiscard m s).transport.faultCode =
    s.transport.faultCode := by
  unfold sendOrDiscard
  (repeat' split) <;> simp

@[simp] theorem requestMotion_frame (m : Motion) (s : State) :
    (requestMotion m s).link = s.link ∧ (requestMotion m s).job = s.job ∧ (requestMotion m s).tables = s.tables ∧
    (requestMotion m s).intake = s.intake ∧ (requestMotion m s).engine = s.engine ∧ (requestMotion m s).head =
    s.head ∧ (requestMotion m s).pending = s.pending ∧ (requestMotion m s).transport.faultCode =
    s.transport.faultCode := by
  unfold requestMotion
  (repeat' split) <;> simp

@[simp] theorem takePending_frame (s : State) :
    (takePending s).link = s.link ∧ (takePending s).job = s.job ∧ (takePending s).tables = s.tables ∧ (takePending
    s).intake = s.intake ∧ (takePending s).engine = s.engine ∧ (takePending s).head = s.head ∧ (takePending
    s).pending = s.pending ∧ (takePending s).transport.faultCode = s.transport.faultCode := by
  unfold takePending
  (repeat' split) <;> simp

@[simp] theorem discardPending_frame (s : State) :
    (discardPending s).link = s.link ∧ (discardPending s).job = s.job ∧ (discardPending s).tables = s.tables ∧
    (discardPending s).intake = s.intake ∧ (discardPending s).engine = s.engine ∧ (discardPending s).head = s.head
    ∧ (discardPending s).pending = s.pending ∧ (discardPending s).transport.faultCode = s.transport.faultCode := by
  unfold discardPending
  (repeat' split) <;> simp

@[simp] theorem signalExcursion_frame (s : State) :
    (signalExcursion s).link = s.link ∧ (signalExcursion s).job = s.job ∧ (signalExcursion s).tables = s.tables ∧
    (signalExcursion s).intake = s.intake ∧ (signalExcursion s).head = s.head ∧ (signalExcursion s).transport =
    s.transport ∧ (signalExcursion s).pending = s.pending ∧ (signalExcursion s).engine.state = s.engine.state ∧
    (signalExcursion s).engine.driven = s.engine.driven ∧ (signalExcursion s).engine.holdTimer =
    s.engine.holdTimer ∧ (signalExcursion s).engine.stopping = s.engine.stopping ∧ (signalExcursion s).engine.m =
    s.engine.m ∧ (signalExcursion s).engine.c = s.engine.c ∧ (signalExcursion s).engine.sat = s.engine.sat ∧
    (signalExcursion s).engine.widths = s.engine.widths := by
  unfold signalExcursion
  (repeat' split) <;> simp

@[simp] theorem limitAlert_frame (kind : AlertKind) (value : Nat) (old : Bool) (new : Bool) (s : State) :
    (limitAlert kind value old new s).job = s.job ∧ (limitAlert kind value old new s).tables = s.tables ∧
    (limitAlert kind value old new s).intake = s.intake ∧ (limitAlert kind value old new s).engine = s.engine ∧
    (limitAlert kind value old new s).head = s.head ∧ (limitAlert kind value old new s).transport = s.transport ∧
    (limitAlert kind value old new s).pending = s.pending ∧ (limitAlert kind value old new s).link.state =
    s.link.state ∧ (limitAlert kind value old new s).link.inbound = s.link.inbound ∧ (limitAlert kind value old
    new s).link.windowOpen = s.link.windowOpen ∧ (limitAlert kind value old new s).link.inTransmission =
    s.link.inTransmission ∧ (limitAlert kind value old new s).link.lastRefusal = s.link.lastRefusal ∧ (limitAlert
    kind value old new s).link.counter = s.link.counter ∧ (limitAlert kind value old new s).link.slots =
    s.link.slots := by
  unfold limitAlert
  (repeat' split) <;> simp

@[simp] theorem clearAlerts_frame (s : State) :
    (clearAlerts s).link = s.link ∧ (clearAlerts s).job = s.job ∧ (clearAlerts s).tables = s.tables ∧ (clearAlerts
    s).intake = s.intake ∧ (clearAlerts s).engine = s.engine ∧ (clearAlerts s).transport = s.transport ∧
    (clearAlerts s).pending = s.pending ∧ (clearAlerts s).head.state = s.head.state ∧ (clearAlerts s).head.raw =
    s.head.raw ∧ (clearAlerts s).head.sum = s.head.sum ∧ (clearAlerts s).head.count = s.head.count ∧ (clearAlerts
    s).head.len = s.head.len ∧ (clearAlerts s).head.mAvg = s.head.mAvg ∧ (clearAlerts s).head.mValid =
    s.head.mValid ∧ (clearAlerts s).head.c = s.head.c ∧ (clearAlerts s).head.sat = s.head.sat ∧ (clearAlerts
    s).head.warmCounter = s.head.warmCounter ∧ (clearAlerts s).head.warmTimer = s.head.warmTimer ∧ (clearAlerts
    s).head.parkTimer = s.head.parkTimer := by
  unfold clearAlerts
  simp

@[simp] theorem compareValue_frame (v : Nat) (s : State) :
    (compareValue v s).job = s.job ∧ (compareValue v s).tables = s.tables ∧ (compareValue v s).intake = s.intake ∧
    (compareValue v s).transport = s.transport ∧ (compareValue v s).pending = s.pending ∧ (compareValue v
    s).head.state = s.head.state ∧ (compareValue v s).head.raw = s.head.raw ∧ (compareValue v s).head.sum =
    s.head.sum ∧ (compareValue v s).head.count = s.head.count ∧ (compareValue v s).head.len = s.head.len ∧
    (compareValue v s).head.mAvg = s.head.mAvg ∧ (compareValue v s).head.mValid = s.head.mValid ∧ (compareValue v
    s).head.c = s.head.c ∧ (compareValue v s).head.sat = s.head.sat ∧ (compareValue v s).head.warmCounter =
    s.head.warmCounter ∧ (compareValue v s).head.warmTimer = s.head.warmTimer ∧ (compareValue v s).head.parkTimer
    = s.head.parkTimer ∧ (compareValue v s).engine.state = s.engine.state ∧ (compareValue v s).engine.driven =
    s.engine.driven ∧ (compareValue v s).engine.holdTimer = s.engine.holdTimer ∧ (compareValue v
    s).engine.stopping = s.engine.stopping ∧ (compareValue v s).engine.m = s.engine.m ∧ (compareValue v
    s).engine.c = s.engine.c ∧ (compareValue v s).engine.sat = s.engine.sat ∧ (compareValue v s).engine.widths =
    s.engine.widths ∧ (compareValue v s).link.state = s.link.state ∧ (compareValue v s).link.inbound =
    s.link.inbound ∧ (compareValue v s).link.windowOpen = s.link.windowOpen ∧ (compareValue v
    s).link.inTransmission = s.link.inTransmission ∧ (compareValue v s).link.lastRefusal = s.link.lastRefusal ∧
    (compareValue v s).link.counter = s.link.counter ∧ (compareValue v s).link.slots = s.link.slots := by
  unfold compareValue
  dsimp only
  split <;> simp

@[simp] theorem computeCorrection_frame (s : State) :
    (computeCorrection s).link = s.link ∧ (computeCorrection s).job = s.job ∧ (computeCorrection s).tables =
    s.tables ∧ (computeCorrection s).intake = s.intake ∧ (computeCorrection s).engine = s.engine ∧
    (computeCorrection s).transport = s.transport ∧ (computeCorrection s).pending = s.pending ∧ (computeCorrection
    s).head.state = s.head.state ∧ (computeCorrection s).head.raw = s.head.raw ∧ (computeCorrection s).head.sum =
    s.head.sum ∧ (computeCorrection s).head.count = s.head.count ∧ (computeCorrection s).head.len = s.head.len ∧
    (computeCorrection s).head.mAvg = s.head.mAvg ∧ (computeCorrection s).head.mValid = s.head.mValid ∧
    (computeCorrection s).head.warmCounter = s.head.warmCounter ∧ (computeCorrection s).head.warmTimer =
    s.head.warmTimer ∧ (computeCorrection s).head.parkTimer = s.head.parkTimer ∧ (computeCorrection
    s).head.overActive = s.head.overActive ∧ (computeCorrection s).head.underActive = s.head.underActive := by
  unfold computeCorrection
  simp

@[simp] theorem parkHead_frame (s : State) :
    (parkHead s).link = s.link ∧ (parkHead s).job = s.job ∧ (parkHead s).tables = s.tables ∧ (parkHead s).intake =
    s.intake ∧ (parkHead s).engine = s.engine ∧ (parkHead s).transport = s.transport ∧ (parkHead s).pending =
    s.pending ∧ (parkHead s).head.raw = s.head.raw ∧ (parkHead s).head.mAvg = s.head.mAvg ∧ (parkHead
    s).head.overActive = s.head.overActive ∧ (parkHead s).head.underActive = s.head.underActive := by
  unfold parkHead
  simp

@[simp] theorem headPinned_frame (s : State) :
    (headPinned s).link = s.link ∧ (headPinned s).job = s.job ∧ (headPinned s).tables = s.tables ∧ (headPinned
    s).intake = s.intake ∧ (headPinned s).engine = s.engine ∧ (headPinned s).transport = s.transport ∧ (headPinned
    s).pending = s.pending ∧ (headPinned s).head.state = s.head.state ∧ (headPinned s).head.raw = s.head.raw ∧
    (headPinned s).head.mAvg = s.head.mAvg ∧ (headPinned s).head.mValid = s.head.mValid ∧ (headPinned
    s).head.warmTimer = s.head.warmTimer ∧ (headPinned s).head.parkTimer = s.head.parkTimer := by
  unfold headPinned
  dsimp only
  split <;> simp

@[simp] theorem headUnpinned_frame (s : State) :
    (headUnpinned s).link = s.link ∧ (headUnpinned s).job = s.job ∧ (headUnpinned s).tables = s.tables ∧
    (headUnpinned s).intake = s.intake ∧ (headUnpinned s).engine = s.engine ∧ (headUnpinned s).transport =
    s.transport ∧ (headUnpinned s).pending = s.pending ∧ (headUnpinned s).head.state = s.head.state ∧
    (headUnpinned s).head.raw = s.head.raw ∧ (headUnpinned s).head.mAvg = s.head.mAvg ∧ (headUnpinned
    s).head.mValid = s.head.mValid ∧ (headUnpinned s).head.c = s.head.c ∧ (headUnpinned s).head.sat = s.head.sat ∧
    (headUnpinned s).head.warmCounter = s.head.warmCounter ∧ (headUnpinned s).head.warmTimer = s.head.warmTimer ∧
    (headUnpinned s).head.parkTimer = s.head.parkTimer := by
  unfold headUnpinned
  simp

@[simp] theorem askReady_frame (s : State) :
    (askReady s).link = s.link ∧ (askReady s).job = s.job ∧ (askReady s).tables = s.tables ∧ (askReady s).intake =
    s.intake ∧ (askReady s).engine = s.engine ∧ (askReady s).transport = s.transport ∧ (askReady s).pending =
    s.pending ∧ (askReady s).head.raw = s.head.raw ∧ (askReady s).head.mAvg = s.head.mAvg ∧ (askReady
    s).head.mValid = s.head.mValid ∧ (askReady s).head.c = s.head.c ∧ (askReady s).head.sat = s.head.sat ∧
    (askReady s).head.overActive = s.head.overActive ∧ (askReady s).head.underActive = s.head.underActive := by
  unfold askReady
  (repeat' split) <;> simp

@[simp] theorem startPark_frame (s : State) :
    (startPark s).link = s.link ∧ (startPark s).job = s.job ∧ (startPark s).tables = s.tables ∧ (startPark
    s).intake = s.intake ∧ (startPark s).engine = s.engine ∧ (startPark s).transport = s.transport ∧ (startPark
    s).pending = s.pending ∧ (startPark s).head.state = s.head.state ∧ (startPark s).head.raw = s.head.raw ∧
    (startPark s).head.sum = s.head.sum ∧ (startPark s).head.count = s.head.count ∧ (startPark s).head.len =
    s.head.len ∧ (startPark s).head.mAvg = s.head.mAvg ∧ (startPark s).head.mValid = s.head.mValid ∧ (startPark
    s).head.c = s.head.c ∧ (startPark s).head.sat = s.head.sat ∧ (startPark s).head.warmCounter =
    s.head.warmCounter ∧ (startPark s).head.warmTimer = s.head.warmTimer ∧ (startPark s).head.overActive =
    s.head.overActive ∧ (startPark s).head.underActive = s.head.underActive := by
  unfold startPark
  (repeat' split) <;> simp

@[simp] theorem updateWarm_frame (s : State) :
    (updateWarm s).link = s.link ∧ (updateWarm s).job = s.job ∧ (updateWarm s).tables = s.tables ∧ (updateWarm
    s).intake = s.intake ∧ (updateWarm s).engine = s.engine ∧ (updateWarm s).transport = s.transport ∧ (updateWarm
    s).pending = s.pending ∧ (updateWarm s).head.raw = s.head.raw ∧ (updateWarm s).head.sum = s.head.sum ∧
    (updateWarm s).head.count = s.head.count ∧ (updateWarm s).head.len = s.head.len ∧ (updateWarm s).head.mAvg =
    s.head.mAvg ∧ (updateWarm s).head.mValid = s.head.mValid ∧ (updateWarm s).head.c = s.head.c ∧ (updateWarm
    s).head.sat = s.head.sat ∧ (updateWarm s).head.overActive = s.head.overActive ∧ (updateWarm
    s).head.underActive = s.head.underActive := by
  unfold updateWarm
  dsimp only
  (repeat' split) <;> simp

@[simp] theorem completeAverage_frame (n : Nat) (s : State) :
    (completeAverage n s).job = s.job ∧ (completeAverage n s).tables = s.tables ∧ (completeAverage n s).intake =
    s.intake ∧ (completeAverage n s).transport = s.transport ∧ (completeAverage n s).pending = s.pending ∧
    (completeAverage n s).head.raw = s.head.raw ∧ (completeAverage n s).engine.state = s.engine.state ∧
    (completeAverage n s).engine.driven = s.engine.driven ∧ (completeAverage n s).engine.holdTimer =
    s.engine.holdTimer ∧ (completeAverage n s).engine.stopping = s.engine.stopping ∧ (completeAverage n
    s).engine.m = s.engine.m ∧ (completeAverage n s).engine.c = s.engine.c ∧ (completeAverage n s).engine.sat =
    s.engine.sat ∧ (completeAverage n s).engine.widths = s.engine.widths ∧ (completeAverage n s).link.state =
    s.link.state ∧ (completeAverage n s).link.inbound = s.link.inbound ∧ (completeAverage n s).link.windowOpen =
    s.link.windowOpen ∧ (completeAverage n s).link.inTransmission = s.link.inTransmission ∧ (completeAverage n
    s).link.lastRefusal = s.link.lastRefusal ∧ (completeAverage n s).link.counter = s.link.counter ∧
    (completeAverage n s).link.slots = s.link.slots := by
  unfold completeAverage
  dsimp only
  (repeat' split) <;> simp

@[simp] theorem takeConversion_frame (raw : Nat) (s : State) :
    (takeConversion raw s).job = s.job ∧ (takeConversion raw s).tables = s.tables ∧ (takeConversion raw s).intake
    = s.intake ∧ (takeConversion raw s).transport = s.transport ∧ (takeConversion raw s).pending = s.pending ∧
    (takeConversion raw s).engine.state = s.engine.state ∧ (takeConversion raw s).engine.driven = s.engine.driven
    ∧ (takeConversion raw s).engine.holdTimer = s.engine.holdTimer ∧ (takeConversion raw s).engine.stopping =
    s.engine.stopping ∧ (takeConversion raw s).engine.m = s.engine.m ∧ (takeConversion raw s).engine.c =
    s.engine.c ∧ (takeConversion raw s).engine.sat = s.engine.sat ∧ (takeConversion raw s).engine.widths =
    s.engine.widths ∧ (takeConversion raw s).link.state = s.link.state ∧ (takeConversion raw s).link.inbound =
    s.link.inbound ∧ (takeConversion raw s).link.windowOpen = s.link.windowOpen ∧ (takeConversion raw
    s).link.inTransmission = s.link.inTransmission ∧ (takeConversion raw s).link.lastRefusal = s.link.lastRefusal
    ∧ (takeConversion raw s).link.counter = s.link.counter ∧ (takeConversion raw s).link.slots = s.link.slots := by
  unfold takeConversion
  dsimp only
  (repeat' split) <;> simp

end Sys2Proof.Machine
end

