-- ==== Sys2Proof/Laws/EngineFrames.lean ====
section
/-!
SUPPORT. The frame of each shared operation of page intake and the exposure engine.
-/

namespace Sys2Proof.Machine

@[simp] theorem Intake.setPage_frame (i : Intake) (c : Context) :
    (i.setPage c).state = i.state ∧ (i.setPage c).store = i.store ∧ (i.setPage c).band = i.band ∧
    (i.setPage c).pheadChecked = i.pheadChecked := by
  unfold Intake.setPage
  split <;> simp

@[simp] theorem endPage_frame (noEnd : Bool) (s : State) :
    (endPage noEnd s).link = s.link ∧ (endPage noEnd s).job = s.job ∧ (endPage noEnd s).tables = s.tables ∧
    (endPage noEnd s).engine = s.engine ∧ (endPage noEnd s).head = s.head ∧ (endPage noEnd s).transport =
    s.transport ∧ (endPage noEnd s).pending = s.pending ∧ (endPage noEnd s).intake.store = s.intake.store ∧
    (endPage noEnd s).intake.band = s.intake.band ∧ (endPage noEnd s).intake.pheadChecked = s.intake.pheadChecked := by
  unfold endPage
  (repeat' split) <;> simp

@[simp] theorem endOpenPage_frame (s : State) :
    (endOpenPage s).link = s.link ∧ (endOpenPage s).job = s.job ∧ (endOpenPage s).tables = s.tables ∧ (endOpenPage
    s).engine = s.engine ∧ (endOpenPage s).head = s.head ∧ (endOpenPage s).transport = s.transport ∧ (endOpenPage
    s).pending = s.pending ∧ (endOpenPage s).intake.store = s.intake.store ∧ (endOpenPage s).intake.band =
    s.intake.band ∧ (endOpenPage s).intake.pheadChecked = s.intake.pheadChecked := by
  unfold endOpenPage
  (repeat' split) <;> simp

@[simp] theorem dropBand_frame (s : State) :
    (dropBand s).job = s.job ∧ (dropBand s).tables = s.tables ∧ (dropBand s).engine = s.engine ∧ (dropBand s).head
    = s.head ∧ (dropBand s).transport = s.transport ∧ (dropBand s).pending = s.pending ∧ (dropBand s).link.state =
    s.link.state ∧ (dropBand s).link.windowOpen = s.link.windowOpen ∧ (dropBand s).link.inTransmission =
    s.link.inTransmission ∧ (dropBand s).link.lastRefusal = s.link.lastRefusal ∧ (dropBand s).link.reports =
    s.link.reports ∧ (dropBand s).link.slots = s.link.slots ∧ (dropBand s).link.overflow = s.link.overflow ∧
    (dropBand s).intake.state = s.intake.state ∧ (dropBand s).intake.contexts = s.intake.contexts ∧ (dropBand
    s).intake.orphan = s.intake.orphan ∧ (dropBand s).intake.store = s.intake.store := by
  unfold dropBand
  (repeat' split) <;> simp

@[simp] theorem purgeExposing_frame (s : State) :
    (purgeExposing s).job = s.job ∧ (purgeExposing s).tables = s.tables ∧ (purgeExposing s).engine = s.engine ∧
    (purgeExposing s).head = s.head ∧ (purgeExposing s).transport = s.transport ∧ (purgeExposing s).pending =
    s.pending ∧ (purgeExposing s).link.state = s.link.state ∧ (purgeExposing s).link.windowOpen =
    s.link.windowOpen ∧ (purgeExposing s).link.inTransmission = s.link.inTransmission ∧ (purgeExposing
    s).link.lastRefusal = s.link.lastRefusal ∧ (purgeExposing s).link.reports = s.link.reports ∧ (purgeExposing
    s).link.slots = s.link.slots ∧ (purgeExposing s).link.overflow = s.link.overflow ∧ (purgeExposing
    s).intake.orphan = s.intake.orphan := by
  unfold purgeExposing
  dsimp only
  (repeat' split) <;> simp

@[simp] theorem carryFlags_frame (s : State) :
    (carryFlags s).link = s.link ∧ (carryFlags s).job = s.job ∧ (carryFlags s).tables = s.tables ∧ (carryFlags
    s).intake = s.intake ∧ (carryFlags s).head = s.head ∧ (carryFlags s).transport = s.transport ∧ (carryFlags
    s).pending = s.pending ∧ (carryFlags s).engine.state = s.engine.state ∧ (carryFlags s).engine.driven =
    s.engine.driven ∧ (carryFlags s).engine.holdTimer = s.engine.holdTimer ∧ (carryFlags s).engine.stopping =
    s.engine.stopping ∧ (carryFlags s).engine.m = s.engine.m ∧ (carryFlags s).engine.c = s.engine.c ∧ (carryFlags
    s).engine.sat = s.engine.sat ∧ (carryFlags s).engine.widths = s.engine.widths := by
  unfold carryFlags
  (repeat' split) <;> simp

@[simp] theorem clearIntake_frame (s : State) :
    (clearIntake s).job = s.job ∧ (clearIntake s).tables = s.tables ∧ (clearIntake s).head = s.head ∧ (clearIntake
    s).transport = s.transport ∧ (clearIntake s).pending = s.pending ∧ (clearIntake s).link.state = s.link.state ∧
    (clearIntake s).link.windowOpen = s.link.windowOpen ∧ (clearIntake s).link.inTransmission =
    s.link.inTransmission ∧ (clearIntake s).link.lastRefusal = s.link.lastRefusal ∧ (clearIntake s).link.reports =
    s.link.reports ∧ (clearIntake s).link.slots = s.link.slots ∧ (clearIntake s).link.overflow = s.link.overflow ∧
    (clearIntake s).engine.state = s.engine.state ∧ (clearIntake s).engine.driven = s.engine.driven ∧ (clearIntake
    s).engine.holdTimer = s.engine.holdTimer ∧ (clearIntake s).engine.stopping = s.engine.stopping ∧ (clearIntake
    s).engine.m = s.engine.m ∧ (clearIntake s).engine.c = s.engine.c ∧ (clearIntake s).engine.sat = s.engine.sat ∧
    (clearIntake s).engine.widths = s.engine.widths := by
  unfold clearIntake
  simp

@[simp] theorem advanceBand_frame (b : Band) (n : Nat) (s : State) :
    (advanceBand b n s).job = s.job ∧ (advanceBand b n s).tables = s.tables ∧ (advanceBand b n s).engine =
    s.engine ∧ (advanceBand b n s).head = s.head ∧ (advanceBand b n s).transport = s.transport ∧ (advanceBand b n
    s).pending = s.pending ∧ (advanceBand b n s).link.state = s.link.state ∧ (advanceBand b n s).link.windowOpen =
    s.link.windowOpen ∧ (advanceBand b n s).link.inTransmission = s.link.inTransmission ∧ (advanceBand b n
    s).link.lastRefusal = s.link.lastRefusal ∧ (advanceBand b n s).link.reports = s.link.reports ∧ (advanceBand b
    n s).link.slots = s.link.slots ∧ (advanceBand b n s).link.overflow = s.link.overflow ∧ (advanceBand b n
    s).intake.state = s.intake.state ∧ (advanceBand b n s).intake.contexts = s.intake.contexts ∧ (advanceBand b n
    s).intake.orphan = s.intake.orphan ∧ (advanceBand b n s).intake.store = s.intake.store := by
  unfold advanceBand
  (repeat' split) <;> simp

@[simp] theorem requestMove_frame (x : Exposure) (s : State) :
    (requestMove x s).link = s.link ∧ (requestMove x s).job = s.job ∧ (requestMove x s).tables = s.tables ∧
    (requestMove x s).intake = s.intake ∧ (requestMove x s).head = s.head ∧ (requestMove x s).pending = s.pending
    ∧ (requestMove x s).transport.faultCode = s.transport.faultCode ∧ (requestMove x s).engine.m = s.engine.m ∧
    (requestMove x s).engine.c = s.engine.c ∧ (requestMove x s).engine.sat = s.engine.sat ∧ (requestMove x
    s).engine.widths = s.engine.widths := by
  unfold requestMove
  simp

@[simp] theorem admit_frame (s : State) :
    (admitContext s).link = s.link ∧ (admitContext s).job = s.job ∧ (admitContext s).tables = s.tables ∧
    (admitContext s).intake = s.intake ∧
    (admitContext s).head = s.head ∧ (admitContext s).pending = s.pending ∧ (admitContext s).transport.faultCode =
    s.transport.faultCode ∧ (admitContext s).engine.m = s.engine.m ∧ (admitContext s).engine.c = s.engine.c ∧ (admitContext
    s).engine.sat = s.engine.sat ∧ (admitContext s).engine.widths = s.engine.widths := by
  unfold admitContext
  (repeat' split) <;> simp

@[simp] theorem engineToIdle_frame (s : State) :
    (engineToIdle s).link = s.link ∧ (engineToIdle s).job = s.job ∧ (engineToIdle s).tables = s.tables ∧
    (engineToIdle s).intake = s.intake ∧ (engineToIdle s).head = s.head ∧ (engineToIdle s).transport = s.transport
    ∧ (engineToIdle s).pending = s.pending ∧ (engineToIdle s).engine.m = s.engine.m ∧ (engineToIdle s).engine.c =
    s.engine.c ∧ (engineToIdle s).engine.sat = s.engine.sat ∧ (engineToIdle s).engine.widths = s.engine.widths := by
  unfold engineToIdle
  simp

@[simp] theorem dropExposing_frame (s : State) :
    (dropExposing s).link = s.link ∧ (dropExposing s).job = s.job ∧ (dropExposing s).tables = s.tables ∧
    (dropExposing s).engine = s.engine ∧ (dropExposing s).head = s.head ∧ (dropExposing s).transport = s.transport
    ∧ (dropExposing s).pending = s.pending ∧ (dropExposing s).intake.state = s.intake.state ∧ (dropExposing
    s).intake.store = s.intake.store ∧ (dropExposing s).intake.band = s.intake.band ∧ (dropExposing
    s).intake.pheadChecked = s.intake.pheadChecked := by
  unfold dropExposing
  (repeat' split) <;> simp

@[simp] theorem releaseOnly_frame (s : State) :
    (releaseOnly s).link = s.link ∧ (releaseOnly s).job = s.job ∧ (releaseOnly s).tables = s.tables ∧ (releaseOnly
    s).head = s.head ∧ (releaseOnly s).transport = s.transport ∧ (releaseOnly s).pending = s.pending ∧
    (releaseOnly s).intake.state = s.intake.state ∧ (releaseOnly s).intake.store = s.intake.store ∧ (releaseOnly
    s).intake.band = s.intake.band ∧ (releaseOnly s).intake.pheadChecked = s.intake.pheadChecked ∧ (releaseOnly
    s).engine.m = s.engine.m ∧ (releaseOnly s).engine.c = s.engine.c ∧ (releaseOnly s).engine.sat = s.engine.sat ∧
    (releaseOnly s).engine.widths = s.engine.widths := by
  unfold releaseOnly
  simp

@[simp] theorem release_frame (s : State) :
    (release s).link = s.link ∧ (release s).job = s.job ∧ (release s).tables = s.tables ∧ (release s).head =
    s.head ∧ (release s).pending = s.pending ∧ (release s).intake.state = s.intake.state ∧ (release
    s).intake.store = s.intake.store ∧ (release s).intake.band = s.intake.band ∧ (release s).intake.pheadChecked =
    s.intake.pheadChecked ∧ (release s).transport.faultCode = s.transport.faultCode ∧ (release s).engine.m =
    s.engine.m ∧ (release s).engine.c = s.engine.c ∧ (release s).engine.sat = s.engine.sat ∧ (release
    s).engine.widths = s.engine.widths := by
  unfold release
  simp

@[simp] theorem startImage_frame (x : Exposure) (grays : List Nat) (s : State) :
    (startImage x grays s).link = s.link ∧ (startImage x grays s).job = s.job ∧ (startImage x grays s).tables =
    s.tables ∧ (startImage x grays s).intake = s.intake ∧ (startImage x grays s).head = s.head ∧ (startImage x
    grays s).transport = s.transport ∧ (startImage x grays s).pending = s.pending := by
  unfold startImage
  simp

@[simp] theorem startFlood_frame (x : Exposure) (s : State) :
    (startFlood x s).link = s.link ∧ (startFlood x s).job = s.job ∧ (startFlood x s).tables = s.tables ∧
    (startFlood x s).intake = s.intake ∧ (startFlood x s).head = s.head ∧ (startFlood x s).transport = s.transport
    ∧ (startFlood x s).pending = s.pending ∧ (startFlood x s).engine.state = s.engine.state ∧ (startFlood x
    s).engine.c = s.engine.c ∧ (startFlood x s).engine.sat = s.engine.sat ∧ (startFlood x s).engine.holdTimer =
    s.engine.holdTimer ∧ (startFlood x s).engine.stopping = s.engine.stopping := by
  unfold startFlood
  (repeat' split) <;> simp

@[simp] theorem voidFrame_frame (s : State) :
    (voidFrame s).job = s.job ∧ (voidFrame s).tables = s.tables ∧ (voidFrame s).head = s.head ∧ (voidFrame
    s).transport = s.transport ∧ (voidFrame s).pending = s.pending ∧ (voidFrame s).link.state = s.link.state ∧
    (voidFrame s).link.windowOpen = s.link.windowOpen ∧ (voidFrame s).link.inTransmission = s.link.inTransmission
    ∧ (voidFrame s).link.lastRefusal = s.link.lastRefusal ∧ (voidFrame s).link.reports = s.link.reports ∧
    (voidFrame s).link.slots = s.link.slots ∧ (voidFrame s).link.overflow = s.link.overflow ∧ (voidFrame
    s).intake.orphan = s.intake.orphan ∧ (voidFrame s).engine.c = s.engine.c ∧ (voidFrame s).engine.sat =
    s.engine.sat ∧ (voidFrame s).engine.stopping = s.engine.stopping := by
  unfold voidFrame
  dsimp only
  (repeat' split) <;> simp

@[simp] theorem underrun_frame (x : Exposure) (s : State) :
    (underrun x s).job = s.job ∧ (underrun x s).tables = s.tables ∧ (underrun x s).head = s.head ∧ (underrun x
    s).transport = s.transport ∧ (underrun x s).pending = s.pending ∧ (underrun x s).link.state = s.link.state ∧
    (underrun x s).link.windowOpen = s.link.windowOpen ∧ (underrun x s).link.inTransmission =
    s.link.inTransmission ∧ (underrun x s).link.lastRefusal = s.link.lastRefusal ∧ (underrun x s).link.reports =
    s.link.reports ∧ (underrun x s).link.slots = s.link.slots ∧ (underrun x s).link.overflow = s.link.overflow ∧
    (underrun x s).intake.orphan = s.intake.orphan ∧ (underrun x s).engine.c = s.engine.c ∧ (underrun x
    s).engine.sat = s.engine.sat ∧ (underrun x s).engine.stopping = s.engine.stopping := by
  unfold underrun
  (repeat' split) <;> simp

@[simp] theorem dueLineStart_frame (s : State) :
    (dueLineStart s).job = s.job ∧ (dueLineStart s).tables = s.tables ∧ (dueLineStart s).head = s.head ∧
    (dueLineStart s).transport = s.transport ∧ (dueLineStart s).pending = s.pending ∧ (dueLineStart s).link.state
    = s.link.state ∧ (dueLineStart s).link.windowOpen = s.link.windowOpen ∧ (dueLineStart s).link.inTransmission =
    s.link.inTransmission ∧ (dueLineStart s).link.lastRefusal = s.link.lastRefusal ∧ (dueLineStart s).link.reports
    = s.link.reports ∧ (dueLineStart s).link.slots = s.link.slots ∧ (dueLineStart s).link.overflow =
    s.link.overflow ∧ (dueLineStart s).intake.orphan = s.intake.orphan ∧ (dueLineStart s).engine.stopping =
    s.engine.stopping := by
  unfold dueLineStart
  (repeat' split) <;> simp [startImage]

@[simp] theorem endHold_frame (s : State) :
    (endHold s).link = s.link ∧ (endHold s).job = s.job ∧ (endHold s).tables = s.tables ∧ (endHold s).head =
    s.head ∧ (endHold s).transport = s.transport ∧ (endHold s).pending = s.pending ∧ (endHold s).intake.orphan =
    s.intake.orphan ∧ (endHold s).intake.state = s.intake.state ∧ (endHold s).intake.contexts = s.intake.contexts
    ∧ (endHold s).intake.band = s.intake.band ∧ (endHold s).intake.pheadChecked = s.intake.pheadChecked ∧ (endHold
    s).engine.stopping = s.engine.stopping := by
  unfold endHold
  (repeat' split) <;> simp [startImage]

@[simp] theorem frameStart_frame (s : State) :
    (frameStart s).tables = s.tables ∧ (frameStart s).head = s.head ∧ (frameStart s).transport = s.transport ∧
    (frameStart s).pending = s.pending ∧ (frameStart s).link.state = s.link.state ∧ (frameStart s).link.windowOpen
    = s.link.windowOpen ∧ (frameStart s).link.inTransmission = s.link.inTransmission ∧ (frameStart
    s).link.lastRefusal = s.link.lastRefusal ∧ (frameStart s).link.reports = s.link.reports ∧ (frameStart
    s).link.slots = s.link.slots ∧ (frameStart s).link.overflow = s.link.overflow ∧ (frameStart s).intake.orphan =
    s.intake.orphan ∧ (frameStart s).job.state = s.job.state ∧ (frameStart s).job.fopenedDue = s.job.fopenedDue ∧
    (frameStart s).job.onStop = s.job.onStop ∧ (frameStart s).engine.stopping = s.engine.stopping := by
  unfold frameStart
  (repeat' split) <;> simp

@[simp] theorem handOver_frame (old : CellState) (x : Exposure) (r : FrameResult) (s : State) :
    (handOver old x r s).tables = s.tables ∧ (handOver old x r s).head = s.head ∧ (handOver old x r s).pending =
    s.pending ∧ (handOver old x r s).job.state = s.job.state ∧ (handOver old x r s).job.fopenedDue =
    s.job.fopenedDue ∧ (handOver old x r s).job.onStop = s.job.onStop ∧ (handOver old x r s).link.state =
    s.link.state ∧ (handOver old x r s).link.inbound = s.link.inbound ∧ (handOver old x r s).link.windowOpen =
    s.link.windowOpen ∧ (handOver old x r s).link.inTransmission = s.link.inTransmission ∧ (handOver old x r
    s).link.lastRefusal = s.link.lastRefusal ∧ (handOver old x r s).link.counter = s.link.counter ∧ (handOver old
    x r s).link.overflow = s.link.overflow ∧ (handOver old x r s).intake.state = s.intake.state ∧ (handOver old x
    r s).intake.store = s.intake.store ∧ (handOver old x r s).intake.band = s.intake.band ∧ (handOver old x r
    s).intake.pheadChecked = s.intake.pheadChecked ∧ (handOver old x r s).transport.faultCode =
    s.transport.faultCode ∧ (handOver old x r s).engine.m = s.engine.m ∧ (handOver old x r s).engine.c =
    s.engine.c ∧ (handOver old x r s).engine.sat = s.engine.sat ∧ (handOver old x r s).engine.widths =
    s.engine.widths := by
  unfold handOver
  dsimp only
  (repeat' split) <;> simp

@[simp] theorem frameEndExposed_frame (x : Exposure) (s : State) :
    (frameEndExposed x s).tables = s.tables ∧ (frameEndExposed x s).head = s.head ∧ (frameEndExposed x s).pending
    = s.pending ∧ (frameEndExposed x s).job.state = s.job.state ∧ (frameEndExposed x s).job.fopenedDue =
    s.job.fopenedDue ∧ (frameEndExposed x s).job.onStop = s.job.onStop ∧ (frameEndExposed x s).link.state =
    s.link.state ∧ (frameEndExposed x s).link.inbound = s.link.inbound ∧ (frameEndExposed x s).link.windowOpen =
    s.link.windowOpen ∧ (frameEndExposed x s).link.inTransmission = s.link.inTransmission ∧ (frameEndExposed x
    s).link.lastRefusal = s.link.lastRefusal ∧ (frameEndExposed x s).link.counter = s.link.counter ∧
    (frameEndExposed x s).link.overflow = s.link.overflow ∧ (frameEndExposed x s).intake.state = s.intake.state ∧
    (frameEndExposed x s).intake.store = s.intake.store ∧ (frameEndExposed x s).intake.band = s.intake.band ∧
    (frameEndExposed x s).intake.pheadChecked = s.intake.pheadChecked ∧ (frameEndExposed x s).transport.faultCode
    = s.transport.faultCode ∧ (frameEndExposed x s).engine.m = s.engine.m ∧ (frameEndExposed x s).engine.c =
    s.engine.c ∧ (frameEndExposed x s).engine.sat = s.engine.sat ∧ (frameEndExposed x s).engine.widths =
    s.engine.widths := by
  unfold frameEndExposed
  simp

@[simp] theorem frameEndVoid_frame (x : Exposure) (s : State) :
    (frameEndVoid x s).tables = s.tables ∧ (frameEndVoid x s).head = s.head ∧ (frameEndVoid x s).pending =
    s.pending ∧ (frameEndVoid x s).job.state = s.job.state ∧ (frameEndVoid x s).job.fopenedDue = s.job.fopenedDue
    ∧ (frameEndVoid x s).job.onStop = s.job.onStop ∧ (frameEndVoid x s).link.state = s.link.state ∧ (frameEndVoid
    x s).link.inbound = s.link.inbound ∧ (frameEndVoid x s).link.windowOpen = s.link.windowOpen ∧ (frameEndVoid x
    s).link.inTransmission = s.link.inTransmission ∧ (frameEndVoid x s).link.lastRefusal = s.link.lastRefusal ∧
    (frameEndVoid x s).link.counter = s.link.counter ∧ (frameEndVoid x s).link.overflow = s.link.overflow ∧
    (frameEndVoid x s).intake.state = s.intake.state ∧ (frameEndVoid x s).intake.store = s.intake.store ∧
    (frameEndVoid x s).intake.band = s.intake.band ∧ (frameEndVoid x s).intake.pheadChecked =
    s.intake.pheadChecked ∧ (frameEndVoid x s).transport.faultCode = s.transport.faultCode ∧ (frameEndVoid x
    s).engine.m = s.engine.m ∧ (frameEndVoid x s).engine.c = s.engine.c ∧ (frameEndVoid x s).engine.sat =
    s.engine.sat ∧ (frameEndVoid x s).engine.widths = s.engine.widths := by
  unfold frameEndVoid
  simp

@[simp] theorem frameEndStopped_frame (x : Exposure) (s : State) :
    (frameEndStopped x s).tables = s.tables ∧ (frameEndStopped x s).head = s.head ∧ (frameEndStopped x s).pending
    = s.pending ∧ (frameEndStopped x s).job.state = s.job.state ∧ (frameEndStopped x s).job.fopenedDue =
    s.job.fopenedDue ∧ (frameEndStopped x s).job.onStop = s.job.onStop ∧ (frameEndStopped x s).link.state =
    s.link.state ∧ (frameEndStopped x s).link.inbound = s.link.inbound ∧ (frameEndStopped x s).link.windowOpen =
    s.link.windowOpen ∧ (frameEndStopped x s).link.inTransmission = s.link.inTransmission ∧ (frameEndStopped x
    s).link.lastRefusal = s.link.lastRefusal ∧ (frameEndStopped x s).link.counter = s.link.counter ∧
    (frameEndStopped x s).link.overflow = s.link.overflow ∧ (frameEndStopped x s).intake.state = s.intake.state ∧
    (frameEndStopped x s).intake.store = s.intake.store ∧ (frameEndStopped x s).intake.band = s.intake.band ∧
    (frameEndStopped x s).intake.pheadChecked = s.intake.pheadChecked ∧ (frameEndStopped x s).transport.faultCode
    = s.transport.faultCode ∧ (frameEndStopped x s).engine.m = s.engine.m ∧ (frameEndStopped x s).engine.c =
    s.engine.c ∧ (frameEndStopped x s).engine.sat = s.engine.sat ∧ (frameEndStopped x s).engine.widths =
    s.engine.widths := by
  unfold frameEndStopped
  (repeat' split) <;> simp

@[simp] theorem imageLineEnd_frame (x : Exposure) (bases : List Nat) (mRef : Nat) (s : State) :
    (imageLineEnd x bases mRef s).tables = s.tables ∧ (imageLineEnd x bases mRef s).head = s.head ∧ (imageLineEnd
    x bases mRef s).pending = s.pending ∧ (imageLineEnd x bases mRef s).job.state = s.job.state ∧ (imageLineEnd x
    bases mRef s).job.fopenedDue = s.job.fopenedDue ∧ (imageLineEnd x bases mRef s).job.onStop = s.job.onStop ∧
    (imageLineEnd x bases mRef s).link.state = s.link.state ∧ (imageLineEnd x bases mRef s).link.windowOpen =
    s.link.windowOpen ∧ (imageLineEnd x bases mRef s).link.inTransmission = s.link.inTransmission ∧ (imageLineEnd
    x bases mRef s).link.lastRefusal = s.link.lastRefusal ∧ (imageLineEnd x bases mRef s).link.overflow =
    s.link.overflow ∧ (imageLineEnd x bases mRef s).transport.faultCode = s.transport.faultCode := by
  unfold imageLineEnd
  dsimp only
  (repeat' split) <;> simp

@[simp] theorem floodLineEnd_frame (x : Exposure) (s : State) :
    (floodLineEnd x s).tables = s.tables ∧ (floodLineEnd x s).head = s.head ∧ (floodLineEnd x s).pending =
    s.pending ∧ (floodLineEnd x s).job.state = s.job.state ∧ (floodLineEnd x s).job.fopenedDue = s.job.fopenedDue
    ∧ (floodLineEnd x s).job.onStop = s.job.onStop ∧ (floodLineEnd x s).link.state = s.link.state ∧ (floodLineEnd
    x s).link.windowOpen = s.link.windowOpen ∧ (floodLineEnd x s).link.inTransmission = s.link.inTransmission ∧
    (floodLineEnd x s).link.lastRefusal = s.link.lastRefusal ∧ (floodLineEnd x s).link.overflow = s.link.overflow
    ∧ (floodLineEnd x s).transport.faultCode = s.transport.faultCode := by
  unfold floodLineEnd
  dsimp only
  (repeat' split) <;> simp

@[simp] theorem stopEngine_frame (s : State) :
    (stopEngine s).tables = s.tables ∧ (stopEngine s).head = s.head ∧ (stopEngine s).pending = s.pending ∧
    (stopEngine s).job.state = s.job.state ∧ (stopEngine s).job.fopenedDue = s.job.fopenedDue ∧ (stopEngine
    s).job.onStop = s.job.onStop ∧ (stopEngine s).link.state = s.link.state ∧ (stopEngine s).link.inbound =
    s.link.inbound ∧ (stopEngine s).link.windowOpen = s.link.windowOpen ∧ (stopEngine s).link.inTransmission =
    s.link.inTransmission ∧ (stopEngine s).link.lastRefusal = s.link.lastRefusal ∧ (stopEngine s).link.counter =
    s.link.counter ∧ (stopEngine s).link.overflow = s.link.overflow ∧ (stopEngine s).intake.state = s.intake.state
    ∧ (stopEngine s).intake.store = s.intake.store ∧ (stopEngine s).intake.band = s.intake.band ∧ (stopEngine
    s).intake.pheadChecked = s.intake.pheadChecked ∧ (stopEngine s).transport.faultCode = s.transport.faultCode ∧
    (stopEngine s).engine.m = s.engine.m ∧ (stopEngine s).engine.c = s.engine.c ∧ (stopEngine s).engine.sat =
    s.engine.sat ∧ (stopEngine s).engine.widths = s.engine.widths := by
  unfold stopEngine
  (repeat' split) <;> simp

@[simp] theorem engineFault_frame (s : State) :
    (engineFault s).tables = s.tables ∧ (engineFault s).head = s.head ∧ (engineFault s).pending = s.pending ∧
    (engineFault s).job.state = s.job.state ∧ (engineFault s).job.fopenedDue = s.job.fopenedDue ∧ (engineFault
    s).job.onStop = s.job.onStop ∧ (engineFault s).link.state = s.link.state ∧ (engineFault s).link.inbound =
    s.link.inbound ∧ (engineFault s).link.windowOpen = s.link.windowOpen ∧ (engineFault s).link.inTransmission =
    s.link.inTransmission ∧ (engineFault s).link.lastRefusal = s.link.lastRefusal ∧ (engineFault s).link.counter =
    s.link.counter ∧ (engineFault s).link.overflow = s.link.overflow ∧ (engineFault s).intake.state =
    s.intake.state ∧ (engineFault s).intake.store = s.intake.store ∧ (engineFault s).intake.band = s.intake.band ∧
    (engineFault s).intake.pheadChecked = s.intake.pheadChecked ∧ (engineFault s).transport.faultCode =
    s.transport.faultCode ∧ (engineFault s).engine.m = s.engine.m ∧ (engineFault s).engine.c = s.engine.c ∧
    (engineFault s).engine.sat = s.engine.sat ∧ (engineFault s).engine.widths = s.engine.widths := by
  unfold engineFault
  (repeat' split) <;> simp

@[simp] theorem appendLine_frame (c : Context) (grays : List Nat) (s : State) :
    (appendLine c grays s).link = s.link ∧ (appendLine c grays s).job = s.job ∧ (appendLine c grays s).tables =
    s.tables ∧ (appendLine c grays s).head = s.head ∧ (appendLine c grays s).transport = s.transport ∧ (appendLine
    c grays s).pending = s.pending ∧ (appendLine c grays s).intake.state = s.intake.state ∧ (appendLine c grays
    s).intake.band = s.intake.band ∧ (appendLine c grays s).intake.pheadChecked = s.intake.pheadChecked ∧
    (appendLine c grays s).engine.stopping = s.engine.stopping := by
  unfold appendLine
  simp [storeLine]

end Sys2Proof.Machine
end

