-- ==== Sys2Proof/Laws/JobFrames.lean ====
section
/-!
SUPPORT. The frame of each shared operation of the fiche job controller.
-/

namespace Sys2Proof.Machine

@[simp] theorem setJobState_frame (j : JobState) (s : State) :
    (setJobState j s).link = s.link ∧ (setJobState j s).tables = s.tables ∧ (setJobState j s).intake = s.intake ∧
    (setJobState j s).engine = s.engine ∧ (setJobState j s).head = s.head ∧ (setJobState j s).transport =
    s.transport ∧ (setJobState j s).pending = s.pending ∧ (setJobState j s).job.fiche = s.job.fiche ∧ (setJobState
    j s).job.fopenedDue = s.job.fopenedDue ∧ (setJobState j s).job.onStop = s.job.onStop := by
  unfold setJobState
  simp

@[simp] theorem setOutcome_frame (o : FicheOutcome) (s : State) :
    (setOutcome o s).link = s.link ∧ (setOutcome o s).tables = s.tables ∧ (setOutcome o s).intake = s.intake ∧
    (setOutcome o s).engine = s.engine ∧ (setOutcome o s).head = s.head ∧ (setOutcome o s).transport = s.transport
    ∧ (setOutcome o s).pending = s.pending ∧ (setOutcome o s).job.state = s.job.state ∧ (setOutcome o
    s).job.fopenedDue = s.job.fopenedDue ∧ (setOutcome o s).job.onStop = s.job.onStop := by
  unfold setOutcome
  (repeat' split) <;> simp

@[simp] theorem setStack_frame (st : Stack) (s : State) :
    (setStack st s).link = s.link ∧ (setStack st s).tables = s.tables ∧ (setStack st s).intake = s.intake ∧
    (setStack st s).engine = s.engine ∧ (setStack st s).head = s.head ∧ (setStack st s).transport = s.transport ∧
    (setStack st s).pending = s.pending ∧ (setStack st s).job.state = s.job.state ∧ (setStack st s).job.fopenedDue
    = s.job.fopenedDue ∧ (setStack st s).job.onStop = s.job.onStop := by
  unfold setStack
  (repeat' split) <;> simp

@[simp] theorem requestEject_frame (st : EjectStack) (s : State) :
    (requestEject st s).link = s.link ∧ (requestEject st s).tables = s.tables ∧ (requestEject st s).intake =
    s.intake ∧ (requestEject st s).engine = s.engine ∧ (requestEject st s).head = s.head ∧ (requestEject st
    s).pending = s.pending ∧ (requestEject st s).job.state = s.job.state ∧ (requestEject st s).job.fopenedDue =
    s.job.fopenedDue ∧ (requestEject st s).job.onStop = s.job.onStop ∧ (requestEject st s).transport.faultCode =
    s.transport.faultCode := by
  unfold requestEject
  simp

@[simp] theorem closeFiche_frame (f : Fiche) (s : State) :
    (closeFiche f s).tables = s.tables ∧ (closeFiche f s).intake = s.intake ∧ (closeFiche f s).engine = s.engine ∧
    (closeFiche f s).head = s.head ∧ (closeFiche f s).transport = s.transport ∧ (closeFiche f s).pending =
    s.pending ∧ (closeFiche f s).link.state = s.link.state ∧ (closeFiche f s).link.windowOpen = s.link.windowOpen
    ∧ (closeFiche f s).link.inTransmission = s.link.inTransmission ∧ (closeFiche f s).link.lastRefusal =
    s.link.lastRefusal ∧ (closeFiche f s).link.inbound = s.link.inbound ∧ (closeFiche f s).link.counter =
    s.link.counter ∧ (closeFiche f s).link.overflow = s.link.overflow ∧ (closeFiche f s).job.state = s.job.state ∧
    (closeFiche f s).job.fopenedDue = s.job.fopenedDue ∧ (closeFiche f s).job.onStop = s.job.onStop := by
  unfold closeFiche
  simp

@[simp] theorem releasePins_frame (s : State) :
    (releasePins s).link = s.link ∧ (releasePins s).job = s.job ∧ (releasePins s).intake = s.intake ∧ (releasePins
    s).engine = s.engine ∧ (releasePins s).transport = s.transport ∧ (releasePins s).pending = s.pending ∧
    (releasePins s).tables.layouts = s.tables.layouts ∧ (releasePins s).tables.curves = s.tables.curves ∧
    (releasePins s).tables.profiles = s.tables.profiles ∧ (releasePins s).tables.unit = s.tables.unit := by
  unfold releasePins
  (repeat' split) <;> simp

@[simp] theorem enterIdle_frame (s : State) :
    (enterIdle s).link = s.link ∧ (enterIdle s).intake = s.intake ∧ (enterIdle s).engine = s.engine ∧ (enterIdle
    s).transport = s.transport ∧ (enterIdle s).pending = s.pending ∧ (enterIdle s).job.fiche = s.job.fiche ∧
    (enterIdle s).job.fopenedDue = s.job.fopenedDue ∧ (enterIdle s).job.onStop = s.job.onStop ∧ (enterIdle
    s).tables.layouts = s.tables.layouts ∧ (enterIdle s).tables.curves = s.tables.curves ∧ (enterIdle
    s).tables.profiles = s.tables.profiles ∧ (enterIdle s).tables.unit = s.tables.unit := by
  unfold enterIdle
  simp

@[simp] theorem endingActions_frame (s : State) :
    (endingActions s).tables = s.tables ∧ (endingActions s).head = s.head ∧ (endingActions s).pending = s.pending
    ∧ (endingActions s).link.state = s.link.state ∧ (endingActions s).link.windowOpen = s.link.windowOpen ∧
    (endingActions s).link.inTransmission = s.link.inTransmission ∧ (endingActions s).link.lastRefusal =
    s.link.lastRefusal ∧ (endingActions s).link.overflow = s.link.overflow ∧ (endingActions s).job.fopenedDue =
    s.job.fopenedDue ∧ (endingActions s).transport.faultCode = s.transport.faultCode ∧ (endingActions s).engine.m
    = s.engine.m ∧ (endingActions s).engine.c = s.engine.c ∧ (endingActions s).engine.sat = s.engine.sat ∧
    (endingActions s).engine.widths = s.engine.widths := by
  unfold endingActions
  simp

@[simp] theorem disposeCard_frame (s : State) :
    (disposeCard s).link = s.link ∧ (disposeCard s).tables = s.tables ∧ (disposeCard s).intake = s.intake ∧
    (disposeCard s).engine = s.engine ∧ (disposeCard s).head = s.head ∧ (disposeCard s).pending = s.pending ∧
    (disposeCard s).job.state = s.job.state ∧ (disposeCard s).job.fopenedDue = s.job.fopenedDue ∧ (disposeCard
    s).job.onStop = s.job.onStop ∧ (disposeCard s).transport.faultCode = s.transport.faultCode := by
  unfold disposeCard
  (repeat' split) <;> simp

@[simp] theorem fullResetAtStop_frame (s : State) :
    (fullResetAtStop s).link = s.link ∧ (fullResetAtStop s).job = s.job ∧ (fullResetAtStop s).intake = s.intake ∧
    (fullResetAtStop s).pending = s.pending ∧ (fullResetAtStop s).tables.pins = s.tables.pins ∧ (fullResetAtStop
    s).engine.state = s.engine.state ∧ (fullResetAtStop s).engine.exposure = s.engine.exposure ∧ (fullResetAtStop
    s).engine.driven = s.engine.driven ∧ (fullResetAtStop s).engine.holdTimer = s.engine.holdTimer ∧
    (fullResetAtStop s).engine.stopping = s.engine.stopping ∧ (fullResetAtStop s).transport.faultCode =
    s.transport.faultCode := by
  unfold fullResetAtStop
  simp

@[simp] theorem takeStopSignal_frame (s : State) :
    (takeStopSignal s).link = s.link ∧ (takeStopSignal s).intake = s.intake ∧ (takeStopSignal s).pending =
    s.pending ∧ (takeStopSignal s).tables.pins = s.tables.pins ∧ (takeStopSignal s).engine.state = s.engine.state
    ∧ (takeStopSignal s).engine.exposure = s.engine.exposure ∧ (takeStopSignal s).engine.driven = s.engine.driven
    ∧ (takeStopSignal s).engine.holdTimer = s.engine.holdTimer ∧ (takeStopSignal s).engine.stopping =
    s.engine.stopping ∧ (takeStopSignal s).transport.faultCode = s.transport.faultCode ∧ (takeStopSignal
    s).job.state = s.job.state ∧ (takeStopSignal s).job.fopenedDue = s.job.fopenedDue := by
  unfold takeStopSignal
  (repeat' split) <;> simp

@[simp] theorem noticeOpening_frame (s : State) :
    (noticeOpening s).link = s.link ∧ (noticeOpening s).job = s.job ∧ (noticeOpening s).tables = s.tables ∧
    (noticeOpening s).intake = s.intake ∧ (noticeOpening s).head = s.head ∧ (noticeOpening s).pending = s.pending
    ∧ (noticeOpening s).transport.faultCode = s.transport.faultCode ∧ (noticeOpening s).engine.m = s.engine.m ∧
    (noticeOpening s).engine.c = s.engine.c ∧ (noticeOpening s).engine.sat = s.engine.sat ∧ (noticeOpening
    s).engine.widths = s.engine.widths := by
  unfold noticeOpening
  (repeat' split) <;> simp

@[simp] theorem meetOpening_frame (s : State) :
    (meetOpening s).link = s.link ∧ (meetOpening s).tables = s.tables ∧ (meetOpening s).intake = s.intake ∧
    (meetOpening s).head = s.head ∧ (meetOpening s).pending = s.pending ∧ (meetOpening s).job.state = s.job.state
    ∧ (meetOpening s).job.onStop = s.job.onStop ∧ (meetOpening s).transport.faultCode = s.transport.faultCode ∧
    (meetOpening s).engine.m = s.engine.m ∧ (meetOpening s).engine.c = s.engine.c ∧ (meetOpening s).engine.sat =
    s.engine.sat ∧ (meetOpening s).engine.widths = s.engine.widths := by
  unfold meetOpening
  (repeat' split) <;> simp

@[simp] theorem composeFopened_frame (s : State) :
    (composeFopened s).tables = s.tables ∧ (composeFopened s).intake = s.intake ∧ (composeFopened s).engine =
    s.engine ∧ (composeFopened s).head = s.head ∧ (composeFopened s).transport = s.transport ∧ (composeFopened
    s).pending = s.pending ∧ (composeFopened s).link.state = s.link.state ∧ (composeFopened s).link.windowOpen =
    s.link.windowOpen ∧ (composeFopened s).link.inTransmission = s.link.inTransmission ∧ (composeFopened
    s).link.lastRefusal = s.link.lastRefusal ∧ (composeFopened s).link.inbound = s.link.inbound ∧ (composeFopened
    s).link.counter = s.link.counter ∧ (composeFopened s).link.overflow = s.link.overflow ∧ (composeFopened
    s).job.fiche = s.job.fiche ∧ (composeFopened s).job.onStop = s.job.onStop := by
  unfold composeFopened
  (repeat' split) <;> simp

@[simp] theorem closingStep_frame (s : State) :
    (closingStep s).link = s.link ∧ (closingStep s).tables = s.tables ∧ (closingStep s).intake = s.intake ∧
    (closingStep s).engine = s.engine ∧ (closingStep s).head = s.head ∧ (closingStep s).pending = s.pending ∧
    (closingStep s).job.state = s.job.state ∧ (closingStep s).job.fopenedDue = s.job.fopenedDue ∧ (closingStep
    s).job.onStop = s.job.onStop ∧ (closingStep s).transport.faultCode = s.transport.faultCode := by
  unfold closingStep
  (repeat' split) <;> simp

@[simp] theorem completeNoStock_frame (f : Fiche) (s : State) :
    (completeNoStock f s).transport = s.transport ∧ (completeNoStock f s).pending = s.pending ∧ (completeNoStock f
    s).link.state = s.link.state ∧ (completeNoStock f s).link.windowOpen = s.link.windowOpen ∧ (completeNoStock f
    s).link.inTransmission = s.link.inTransmission ∧ (completeNoStock f s).link.lastRefusal = s.link.lastRefusal ∧
    (completeNoStock f s).link.overflow = s.link.overflow ∧ (completeNoStock f s).job.fopenedDue =
    s.job.fopenedDue ∧ (completeNoStock f s).job.onStop = s.job.onStop ∧ (completeNoStock f s).tables.layouts =
    s.tables.layouts ∧ (completeNoStock f s).tables.curves = s.tables.curves ∧ (completeNoStock f
    s).tables.profiles = s.tables.profiles ∧ (completeNoStock f s).tables.unit = s.tables.unit ∧ (completeNoStock
    f s).engine.m = s.engine.m ∧ (completeNoStock f s).engine.c = s.engine.c ∧ (completeNoStock f s).engine.sat =
    s.engine.sat ∧ (completeNoStock f s).engine.widths = s.engine.widths := by
  unfold completeNoStock
  (repeat' split) <;> simp

@[simp] theorem completeEnding_frame (s : State) :
    (completeEnding s).intake = s.intake ∧ (completeEnding s).engine = s.engine ∧ (completeEnding s).transport =
    s.transport ∧ (completeEnding s).pending = s.pending ∧ (completeEnding s).link.state = s.link.state ∧
    (completeEnding s).link.windowOpen = s.link.windowOpen ∧ (completeEnding s).link.inTransmission =
    s.link.inTransmission ∧ (completeEnding s).link.lastRefusal = s.link.lastRefusal ∧ (completeEnding
    s).link.inbound = s.link.inbound ∧ (completeEnding s).link.counter = s.link.counter ∧ (completeEnding
    s).link.overflow = s.link.overflow ∧ (completeEnding s).job.fopenedDue = s.job.fopenedDue ∧ (completeEnding
    s).job.onStop = s.job.onStop ∧ (completeEnding s).tables.layouts = s.tables.layouts ∧ (completeEnding
    s).tables.curves = s.tables.curves ∧ (completeEnding s).tables.profiles = s.tables.profiles ∧ (completeEnding
    s).tables.unit = s.tables.unit := by
  unfold completeEnding
  (repeat' split) <;> simp

@[simp] theorem completeJob_frame (s : State) :
    (completeJob s).transport = s.transport ∧ (completeJob s).pending = s.pending ∧ (completeJob s).link.state =
    s.link.state ∧ (completeJob s).link.windowOpen = s.link.windowOpen ∧ (completeJob s).link.inTransmission =
    s.link.inTransmission ∧ (completeJob s).link.lastRefusal = s.link.lastRefusal ∧ (completeJob s).link.overflow
    = s.link.overflow ∧ (completeJob s).job.fopenedDue = s.job.fopenedDue ∧ (completeJob s).job.onStop =
    s.job.onStop ∧ (completeJob s).tables.layouts = s.tables.layouts ∧ (completeJob s).tables.curves =
    s.tables.curves ∧ (completeJob s).tables.profiles = s.tables.profiles ∧ (completeJob s).tables.unit =
    s.tables.unit ∧ (completeJob s).engine.m = s.engine.m ∧ (completeJob s).engine.c = s.engine.c ∧ (completeJob
    s).engine.sat = s.engine.sat ∧ (completeJob s).engine.widths = s.engine.widths := by
  unfold completeJob
  (repeat' split) <;> simp

@[simp] theorem jobTests_frame (s : State) :
    (jobTests s).pending = s.pending ∧ (jobTests s).link.state = s.link.state ∧ (jobTests s).link.windowOpen =
    s.link.windowOpen ∧ (jobTests s).link.inTransmission = s.link.inTransmission ∧ (jobTests s).link.lastRefusal =
    s.link.lastRefusal ∧ (jobTests s).link.overflow = s.link.overflow ∧ (jobTests s).transport.faultCode =
    s.transport.faultCode := by
  unfold jobTests
  simp

@[simp] theorem jobProceeds_frame (s : State) :
    (jobProceeds s).transport.faultCode = s.transport.faultCode ∧ (jobProceeds s).pending = s.pending ∧ (jobProceeds s).link.state =
    s.link.state ∧ (jobProceeds s).link.windowOpen = s.link.windowOpen ∧ (jobProceeds s).link.inTransmission =
    s.link.inTransmission ∧ (jobProceeds s).link.lastRefusal = s.link.lastRefusal ∧ (jobProceeds s).link.overflow
    = s.link.overflow ∧ (jobProceeds s).job.onStop = s.job.onStop ∧ (jobProceeds s).tables.layouts =
    s.tables.layouts ∧ (jobProceeds s).tables.curves = s.tables.curves ∧ (jobProceeds s).tables.profiles =
    s.tables.profiles ∧ (jobProceeds s).tables.unit = s.tables.unit ∧ (jobProceeds s).engine.m = s.engine.m ∧
    (jobProceeds s).engine.c = s.engine.c ∧ (jobProceeds s).engine.sat = s.engine.sat ∧ (jobProceeds
    s).engine.widths = s.engine.widths := by
  unfold jobProceeds
  simp

@[simp] theorem takeNoStock_frame (s : State) :
    (takeNoStock s).tables = s.tables ∧ (takeNoStock s).head = s.head ∧ (takeNoStock s).transport = s.transport ∧
    (takeNoStock s).pending = s.pending ∧ (takeNoStock s).link.state = s.link.state ∧ (takeNoStock
    s).link.windowOpen = s.link.windowOpen ∧ (takeNoStock s).link.inTransmission = s.link.inTransmission ∧
    (takeNoStock s).link.lastRefusal = s.link.lastRefusal ∧ (takeNoStock s).link.reports = s.link.reports ∧
    (takeNoStock s).link.slots = s.link.slots ∧ (takeNoStock s).link.overflow = s.link.overflow ∧ (takeNoStock
    s).job.state = s.job.state ∧ (takeNoStock s).job.fopenedDue = s.job.fopenedDue ∧ (takeNoStock s).job.onStop =
    s.job.onStop ∧ (takeNoStock s).engine.m = s.engine.m ∧ (takeNoStock s).engine.c = s.engine.c ∧ (takeNoStock
    s).engine.sat = s.engine.sat ∧ (takeNoStock s).engine.widths = s.engine.widths := by
  unfold takeNoStock
  dsimp only
  (repeat' split) <;> simp

@[simp] theorem takeHeadNotReady_frame (s : State) :
    (takeHeadNotReady s).tables = s.tables ∧ (takeHeadNotReady s).head = s.head ∧ (takeHeadNotReady s).pending =
    s.pending ∧ (takeHeadNotReady s).link.state = s.link.state ∧ (takeHeadNotReady s).link.windowOpen =
    s.link.windowOpen ∧ (takeHeadNotReady s).link.inTransmission = s.link.inTransmission ∧ (takeHeadNotReady
    s).link.lastRefusal = s.link.lastRefusal ∧ (takeHeadNotReady s).link.overflow = s.link.overflow ∧
    (takeHeadNotReady s).job.fopenedDue = s.job.fopenedDue ∧ (takeHeadNotReady s).transport.faultCode =
    s.transport.faultCode ∧ (takeHeadNotReady s).engine.m = s.engine.m ∧ (takeHeadNotReady s).engine.c =
    s.engine.c ∧ (takeHeadNotReady s).engine.sat = s.engine.sat ∧ (takeHeadNotReady s).engine.widths =
    s.engine.widths := by
  unfold takeHeadNotReady
  (repeat' split) <;> simp

@[simp] theorem recordFault_frame (code : TransportCode) (s : State) :
    (recordFault code s).link = s.link ∧ (recordFault code s).tables = s.tables ∧ (recordFault code s).intake =
    s.intake ∧ (recordFault code s).engine = s.engine ∧ (recordFault code s).head = s.head ∧ (recordFault code
    s).transport = s.transport ∧ (recordFault code s).pending = s.pending ∧ (recordFault code s).job.state =
    s.job.state ∧ (recordFault code s).job.fopenedDue = s.job.fopenedDue ∧ (recordFault code s).job.onStop =
    s.job.onStop := by
  unfold recordFault
  (repeat' split) <;> simp

@[simp] theorem takeTransportFault_frame (code : TransportCode) (s : State) :
    (takeTransportFault code s).tables = s.tables ∧ (takeTransportFault code s).head = s.head ∧
    (takeTransportFault code s).pending = s.pending ∧ (takeTransportFault code s).link.state = s.link.state ∧
    (takeTransportFault code s).link.windowOpen = s.link.windowOpen ∧ (takeTransportFault code
    s).link.inTransmission = s.link.inTransmission ∧ (takeTransportFault code s).link.lastRefusal =
    s.link.lastRefusal ∧ (takeTransportFault code s).link.overflow = s.link.overflow ∧ (takeTransportFault code
    s).job.fopenedDue = s.job.fopenedDue ∧ (takeTransportFault code s).transport.faultCode = s.transport.faultCode
    ∧ (takeTransportFault code s).engine.m = s.engine.m ∧ (takeTransportFault code s).engine.c = s.engine.c ∧
    (takeTransportFault code s).engine.sat = s.engine.sat ∧ (takeTransportFault code s).engine.widths =
    s.engine.widths := by
  unfold takeTransportFault
  (repeat' split) <;> simp

@[simp] theorem transportAlert_frame (code : TransportCode) (f : InFlight) (before : CardState) (s : State) :
    (transportAlert code f before s).job = s.job ∧ (transportAlert code f before s).tables = s.tables ∧
    (transportAlert code f before s).intake = s.intake ∧ (transportAlert code f before s).engine = s.engine ∧
    (transportAlert code f before s).head = s.head ∧ (transportAlert code f before s).transport = s.transport ∧
    (transportAlert code f before s).pending = s.pending ∧ (transportAlert code f before s).link.state =
    s.link.state ∧ (transportAlert code f before s).link.inbound = s.link.inbound ∧ (transportAlert code f before
    s).link.windowOpen = s.link.windowOpen ∧ (transportAlert code f before s).link.inTransmission =
    s.link.inTransmission ∧ (transportAlert code f before s).link.lastRefusal = s.link.lastRefusal ∧
    (transportAlert code f before s).link.counter = s.link.counter ∧ (transportAlert code f before s).link.slots =
    s.link.slots := by
  unfold transportAlert
  (repeat' split) <;> simp

@[simp] theorem transportFault_frame (code : TransportCode) (f : InFlight) (s : State) :
    (transportFault code f s).tables = s.tables ∧ (transportFault code f s).head = s.head ∧ (transportFault code f
    s).pending = s.pending ∧ (transportFault code f s).link.state = s.link.state ∧ (transportFault code f
    s).link.windowOpen = s.link.windowOpen ∧ (transportFault code f s).link.inTransmission = s.link.inTransmission
    ∧ (transportFault code f s).link.lastRefusal = s.link.lastRefusal ∧ (transportFault code f s).job.fopenedDue =
    s.job.fopenedDue ∧ (transportFault code f s).engine.m = s.engine.m ∧ (transportFault code f s).engine.c =
    s.engine.c ∧ (transportFault code f s).engine.sat = s.engine.sat ∧ (transportFault code f s).engine.widths =
    s.engine.widths := by
  unfold transportFault
  simp

@[simp] theorem loadNoStock_frame (s : State) :
    (loadNoStock s).tables = s.tables ∧ (loadNoStock s).head = s.head ∧ (loadNoStock s).pending = s.pending ∧
    (loadNoStock s).link.state = s.link.state ∧ (loadNoStock s).link.windowOpen = s.link.windowOpen ∧ (loadNoStock
    s).link.inTransmission = s.link.inTransmission ∧ (loadNoStock s).link.lastRefusal = s.link.lastRefusal ∧
    (loadNoStock s).link.reports = s.link.reports ∧ (loadNoStock s).link.slots = s.link.slots ∧ (loadNoStock
    s).link.overflow = s.link.overflow ∧ (loadNoStock s).job.state = s.job.state ∧ (loadNoStock s).job.fopenedDue
    = s.job.fopenedDue ∧ (loadNoStock s).job.onStop = s.job.onStop ∧ (loadNoStock s).transport.faultCode =
    s.transport.faultCode ∧ (loadNoStock s).engine.m = s.engine.m ∧ (loadNoStock s).engine.c = s.engine.c ∧
    (loadNoStock s).engine.sat = s.engine.sat ∧ (loadNoStock s).engine.widths = s.engine.widths := by
  unfold loadNoStock
  simp

@[simp] theorem tellDone_frame (m : Motion) (s : State) :
    (tellDone m s).pending = s.pending ∧ (tellDone m s).link.state = s.link.state ∧ (tellDone m s).link.windowOpen
    = s.link.windowOpen ∧ (tellDone m s).link.inTransmission = s.link.inTransmission ∧ (tellDone m
    s).link.lastRefusal = s.link.lastRefusal ∧ (tellDone m s).link.reports = s.link.reports ∧ (tellDone m
    s).link.slots = s.link.slots ∧ (tellDone m s).link.overflow = s.link.overflow ∧ (tellDone m s).job.fopenedDue
    = s.job.fopenedDue ∧ (tellDone m s).job.onStop = s.job.onStop ∧ (tellDone m s).tables.layouts =
    s.tables.layouts ∧ (tellDone m s).tables.curves = s.tables.curves ∧ (tellDone m s).tables.profiles =
    s.tables.profiles ∧ (tellDone m s).tables.unit = s.tables.unit ∧ (tellDone m s).transport.faultCode =
    s.transport.faultCode := by
  unfold tellDone
  (repeat' split) <;> simp

@[simp] theorem motionDone_frame (f : InFlight) (s : State) :
    (motionDone f s).pending = s.pending ∧ (motionDone f s).link.state = s.link.state ∧ (motionDone f
    s).link.windowOpen = s.link.windowOpen ∧ (motionDone f s).link.inTransmission = s.link.inTransmission ∧
    (motionDone f s).link.lastRefusal = s.link.lastRefusal ∧ (motionDone f s).link.reports = s.link.reports ∧
    (motionDone f s).link.slots = s.link.slots ∧ (motionDone f s).link.overflow = s.link.overflow ∧ (motionDone f
    s).job.fopenedDue = s.job.fopenedDue ∧ (motionDone f s).job.onStop = s.job.onStop ∧ (motionDone f
    s).tables.layouts = s.tables.layouts ∧ (motionDone f s).tables.curves = s.tables.curves ∧ (motionDone f
    s).tables.profiles = s.tables.profiles ∧ (motionDone f s).tables.unit = s.tables.unit := by
  unfold motionDone
  simp

end Sys2Proof.Machine
end

