-- ==== Sys2Proof/Laws/CardKept.lean ====
section
/-!
SUPPORT. Every shared operation keeps the fiche record in order (`State.ficheOk`) and the card's way to the accept stack
(`AcceptOk`).
-/

namespace Sys2Proof.Machine

variable {s t u : State}

/-- An operation from `s` to `t` keeps both properties of the fiche's card. -/
def CardKept (s t : State) : Prop := (s.ficheOk → t.ficheOk) ∧ (AcceptOk s → AcceptOk t)

theorem CardKept.refl : CardKept s s := ⟨id, id⟩

theorem CardKept.trans (h : CardKept s t) (h' : CardKept t u) : CardKept s u := ⟨h'.1 ∘ h.1, h'.2 ∘ h.2⟩

theorem CardKept.of_eq (hf : t.job.fiche = s.job.fiche) (ht : t.transport = s.transport) : CardKept s t := by
  refine ⟨fun h f hf' => h f (hf ▸ hf'), fun h ha f hf' => ?_⟩
  rw [ht] at ha
  exact h ha f (hf ▸ hf')

/-- An operation that leaves the fiche record and the transport controller alone keeps both. -/
theorem CardKept.same (h : CardKept s t) (hf : u.job.fiche = t.job.fiche) (ht : u.transport = t.transport) :
    CardKept s u := h.trans (.of_eq hf ht)

/-! ### Updates of the fiche record -/

/-- A new fiche record that is in order where the old one was, with the old outcome. -/
theorem CardKept.setFiche {f g : Fiche} (hf : s.job.fiche = some f) (hg : FicheOk f → FicheOk g)
    (ho : f.outcome = some .complete → g.outcome = some .complete) : CardKept s (s.setFiche g) := by
  refine ⟨fun h k hk => ?_, fun h ha k hk => ?_⟩
  · cases hk
    exact hg (h f hf)
  · cases hk
    exact ho (h ha f hf)

theorem countCells_set {map : List Cell} {i : Nat} {c d : Cell} {st : CellState} (h : map[i]? = some c)
    (hc : c.state ≠ st) : countCells (map.set i d) st = countCells map st + (if d.state = st then 1 else 0) := by
  induction map generalizing i with
  | nil => simp at h
  | cons a l ih =>
    cases i with
    | zero =>
      simp only [List.getElem?_cons_zero, Option.some.injEq] at h
      subst h
      simp [countCells, List.countP_cons, hc]
    | succ i =>
      simp only [List.getElem?_cons_succ] at h
      have := ih h
      simp only [countCells, List.set_cons_succ, List.countP_cons] at this ⊢
      omega

theorem doseSum_set {map : List Cell} {i : Nat} {c d : Cell} (h : map[i]? = some c) (hc : c.a.getD 0 = 0) :
    ((map.set i d).map fun x => x.a.getD 0).sum = (map.map fun x => x.a.getD 0).sum + d.a.getD 0 := by
  induction map generalizing i with
  | nil => simp at h
  | cons a l ih =>
    cases i with
    | zero =>
      simp only [List.getElem?_cons_zero, Option.some.injEq] at h
      subst h
      simp only [List.set_cons_zero, List.map_cons, List.sum_cons, hc]
      omega
    | succ i =>
      simp only [List.getElem?_cons_succ] at h
      have := ih h
      simp only [List.set_cons_succ, List.map_cons, List.sum_cons]
      omega

/-- A cell that has not ended changes: the map's accounts follow the new entry (R4, R9). -/
theorem FicheOk.setCell {f : Fiche} (h : FicheOk f) {i : Nat} {c d : Cell} (hi : f.map[i]? = some c)
    (hc : c.isEnded = false) (hd : d.a.isSome = d.isEnded) (hp : d.p.isSome = d.isEnded) :
    FicheOk { f with map := f.map.set i d, dose := f.dose + d.a.getD 0,
                     voidCount := f.voidCount + if d.state = .void then 1 else 0 } := by
  obtain ⟨h1, h2, h3, h4, h5⟩ := h
  have hm := List.mem_of_getElem? hi
  have ha : c.a.getD 0 = 0 := by
    have := h3 c hm
    rw [hc] at this
    simp only [Option.isSome_eq_false_iff, Option.isNone_iff_eq_none] at this
    simp [this]
  have hv : c.state ≠ .void := by
    intro hv
    simp [Cell.isEnded, hv] at hc
  have hmem : ∀ x ∈ f.map.set i d, x = d ∨ x ∈ f.map := by
    intro x hx
    rcases List.mem_or_eq_of_mem_set hx with h | h
    · exact .inr h
    · exact .inl h
  constructor
  · dsimp only
    rw [countCells_set hi hv, h1]
  · dsimp only
    rw [doseSum_set hi ha, h2]
  · intro x hx
    rcases hmem x hx with rfl | hx
    · exact hd
    · exact h3 x hx
  · intro x hx
    rcases hmem x hx with rfl | hx
    · exact hp
    · exact h4 x hx
  · exact h5

/-- A cell passes between states that are no end of a frame (R7, R8). -/
theorem FicheOk.moveCell {f : Fiche} (h : FicheOk f) {i : Nat} {old : CellState} {g : Cell → Cell}
    (hold : old ≠ .exposed ∧ old ≠ .exposedFault ∧ old ≠ .void)
    (hg : ∀ c, (g c).a = c.a ∧ (g c).p = c.p ∧ (g c).isEnded = false ∧ (g c).state ≠ .void) :
    FicheOk { f with map := moveCell f.map i old g } := by
  unfold Machine.moveCell
  split
  · rename_i c hi
    split
    · rename_i hs
      obtain ⟨ha, hp, he, hv⟩ := hg c
      have hc : c.isEnded = false := by
        simp [Cell.isEnded, Cell.isExposed, hs, hold.1, hold.2.1, hold.2.2]
      have hm := List.mem_of_getElem? hi
      have := h.setCell (d := g c) hi hc (by rw [ha, he, h.a_present c hm, hc]) (by rw [hp, he, h.p_present c hm, hc])
      have hn : (g c).a = none := by
        rw [ha]
        have := h.a_present c hm
        rw [hc] at this
        simpa using this
      simpa [hn, hv] using this
    · exact h
  · exact h

theorem assignCell_card {cell : Nat} {key : Option (List Byte)} : CardKept s (assignCell cell key s) := by
  unfold assignCell
  split
  · exact .refl
  · rename_i f hf
    exact .setFiche hf (fun h => h.moveCell (by decide) fun c => ⟨rfl, rfl, by simp [Cell.isEnded, Cell.isExposed], by simp⟩) id

theorem startCell_card {cell : Nat} : CardKept s (startCell cell s) := by
  unfold startCell
  split
  · exact .refl
  · rename_i f hf
    split
    · exact .setFiche hf (fun h => h.moveCell (by decide) fun c => ⟨rfl, rfl, by simp [Cell.isEnded, Cell.isExposed], by simp⟩)
        id
    · exact .refl

/-- A frame's result enters the map, A the fiche dose and VOID the void count together (R9, R10, R104). -/
theorem recordResult_card {cell : Nat} {old : CellState} {r : FrameResult}
    (hold : old ≠ .exposed ∧ old ≠ .exposedFault ∧ old ≠ .void)
    (hr : r.final = .exposed ∨ r.final = .exposedFault ∨ r.final = .void) : CardKept s (recordResult cell old r s) := by
  unfold recordResult
  split
  · exact .refl
  · rename_i f hf
    split
    · rename_i hc
      simp only [Bool.and_eq_true, cellIn] at hc
      refine .setFiche hf (fun h => ?_) id
      have hc := hc.2
      unfold Machine.moveCell
      split at hc
      · rename_i c hi
        simp only [beq_iff_eq] at hc
        simp only [hc, if_true]
        have hn : c.isEnded = false := by
          simp [Cell.isEnded, Cell.isExposed, hc, hold.1, hold.2.1, hold.2.2]
        have he : (c.withResult r).isEnded = true := by
          rcases hr with h | h | h <;> simp [Cell.withResult, Cell.isEnded, Cell.isExposed, h]
        have := h.setCell (d := c.withResult r) hi hn (by rw [he]; rfl) (by rw [he]; rfl)
        exact this
      · cases hc
    · exact .refl

theorem Fiche.withOutcome_ok {f : Fiche} {o : FicheOutcome} (h : FicheOk f) : FicheOk (f.withOutcome o) := by
  obtain ⟨h1, h2, h3, h4, h5⟩ := h
  refine ⟨h1, h2, h3, h4, fun ha => ?_⟩
  have := h5 ha
  simp [Fiche.withOutcome, this]

theorem setOutcome_card {o : FicheOutcome} : CardKept s (setOutcome o s) := by
  unfold setOutcome
  split
  · exact .refl
  · exact .setFiche ‹_› Fiche.withOutcome_ok fun h => by simp [Fiche.withOutcome, h]

theorem setStack_card {st : Stack} (hs : st ≠ .accept) : CardKept s (setStack st s) := by
  unfold setStack
  split
  · exact .refl
  · rename_i f hf
    refine .setFiche hf (fun h => ?_) id
    obtain ⟨h1, h2, h3, h4, h5⟩ := h
    exact ⟨h1, h2, h3, h4, fun ha => by simp [hs] at ha⟩

theorem closeFiche_card {f g : Fiche} (hf : s.job.fiche = some f) (hg : FicheOk f → FicheOk g)
    (ho : f.outcome = some .complete → g.outcome = some .complete) : CardKept s (closeFiche g s) := by
  unfold closeFiche
  refine (CardKept.refl (s := s)).trans (CardKept.trans (t := composeSlot .job (.fclosed (fclosedOf g)) s)
    (.of_eq (by simp) (by simp)) (.setFiche (f := f) (by simpa using hf) (fun h => ?_) ho))
  obtain ⟨h1, h2, h3, h4, h5⟩ := hg h
  exact ⟨h1, h2, h3, h4, h5⟩

theorem withDefaultStack_ok {f : Fiche} (h : FicheOk f) : FicheOk f.withDefaultStack := by
  obtain ⟨h1, h2, h3, h4, h5⟩ := h
  refine ⟨h1, h2, h3, h4, fun ha => h5 ?_⟩
  simp only [Fiche.withDefaultStack, Option.some.injEq] at ha
  cases hs : f.stack <;> simp_all

theorem recordFault_card {c : TransportCode} : CardKept s (recordFault c s) := by
  unfold recordFault
  split
  · exact .refl
  · refine .setFiche ‹_› (fun h => ?_) (fun h => ?_)
    · unfold Fiche.withFault
      split
      · exact h
      · obtain ⟨h1, h2, h3, h4, h5⟩ := Fiche.withOutcome_ok (o := .transportFault) h
        exact ⟨h1, h2, h3, h4, by simp⟩
    · unfold Fiche.withFault
      split
      · exact h
      · simp [Fiche.withOutcome, h]

/-! ### Motion requests -/

/-- A request other than an EJECT ACCEPT sends no card to the accept stack. -/
theorem requestMotion_card {m : Motion} (hm : m ≠ .eject .accept) : CardKept s (requestMotion m s) := by
  refine ⟨fun h f hf => h f (by simpa using hf), fun h ha f hf => h ?_ f (by simpa using hf)⟩
  revert ha
  unfold requestMotion sendOrDiscard sendMotion acceptUnderWay
  (repeat' split) <;> simp_all

theorem takePending_card : CardKept s (takePending s) := by
  refine ⟨fun h f hf => h f (by simpa using hf), fun h ha f hf => h ?_ f (by simpa using hf)⟩
  revert ha
  unfold takePending sendOrDiscard sendMotion acceptUnderWay
  (repeat' split) <;> simp_all

theorem discardPending_card : CardKept s (discardPending s) := by
  refine ⟨fun h f hf => h f (by simpa using hf), fun h ha f hf => h ?_ f (by simpa using hf)⟩
  revert ha
  unfold discardPending acceptUnderWay
  (repeat' split) <;> simp_all

/-- The command in flight ends. -/
theorem CardKept.landed {x : Transport} (hi : x.inFlight = none) (hp : x.pendingReq = s.transport.pendingReq) :
    CardKept s (s.setTransport x) := by
  refine ⟨fun h f hf => h f hf, fun h ha f hf => h ?_ f hf⟩
  simp only [acceptUnderWay, State.setTransport_transport, hi, hp] at ha ⊢
  simp_all

theorem requestReject_card : CardKept s (requestEject .reject s) :=
  (setStack_card (by decide)).trans (requestMotion_card (by decide))

/-- The closing step (R18 to R20): a card goes to the accept stack with outcome COMPLETE only. -/
theorem closingStep_card : CardKept s (closingStep s) := by
  unfold closingStep
  split
  · exact .refl
  · rename_i f hf
    dsimp only
    split
    · rename_i hc
      have hnone : f.outcome = none := hc.2.2.1
      generalize evaluateOutcome f.map f.voidCount s.profile = o
      constructor
      · intro h
        have hk := h f hf
        obtain ⟨h1, h2, h3, h4, h5⟩ := hk
        intro k hk
        simp only [requestEject, setStack, State.setFiche_job, requestMotion_frame, Option.some.injEq] at hk
        subst hk
        refine ⟨h1, h2, h3, h4, fun ha => ?_⟩
        unfold FicheOutcome.closingStack at ha
        split at ha
        · simp_all
        · simp at ha
      · intro h ha k hk
        simp only [requestEject, setStack, State.setFiche_job, requestMotion_frame, Option.some.injEq] at hk
        subst hk
        have hold : acceptUnderWay s.transport = true → o = .complete := by
          intro hu
          have := h hu f hf
          rw [hnone] at this
          cases this
        by_cases ho : o = .complete
        · simp [ho]
        · have : FicheOutcome.closingStack o = .reject := by simp [FicheOutcome.closingStack, ho]
          rw [this] at ha
          exfalso
          refine ho (hold ?_)
          revert ha
          unfold requestEject requestMotion sendOrDiscard sendMotion acceptUnderWay
          simp only [setStack_frame, State.setFiche_transport]
          (repeat' split) <;> simp_all
    · exact .refl

/-! ### The exposure engine -/

theorem admit_card : CardKept s (admitContext s) := by
  unfold admitContext requestMove
  dsimp only
  (repeat' split) <;> first
    | exact .refl
    | exact .of_eq (by simp) (by simp)
    | exact (CardKept.of_eq (by simp) (by simp)).trans (requestMotion_card (by simp))

theorem release_card : CardKept s (release s) :=
  CardKept.trans (t := releaseOnly s) (.of_eq (by simp) (by simp)) admit_card

theorem handOver_card {o : CellState} {x : Exposure} {r : FrameResult}
    (hold : o ≠ .exposed ∧ o ≠ .exposedFault ∧ o ≠ .void)
    (hr : r.final = .exposed ∨ r.final = .exposedFault ∨ r.final = .void) : CardKept s (handOver o x r s) := by
  have h1 := recordResult_card (s := s) (cell := x.cell) (r := r) hold hr
  unfold handOver
  dsimp only
  split
  · exact (h1.same (by simp) (by simp)).trans release_card
  · exact h1.same (by simp) (by simp)

theorem frameEndVoid_card {x : Exposure} : CardKept s (frameEndVoid x s) :=
  handOver_card (by decide) (.inr (.inr rfl))

theorem frameEndExposed_card {x : Exposure} : CardKept s (frameEndExposed x s) := by
  refine handOver_card (by decide) ?_
  simp only [resultOf, finalState]
  split <;> simp

theorem frameEndStopped_card {x : Exposure} : CardKept s (frameEndStopped x s) := by
  unfold frameEndStopped
  split
  · exact .of_eq (by simp) (by simp)
  · exact frameEndVoid_card

theorem imageLineEnd_card {x : Exposure} {b : List Nat} {m : Nat} : CardKept s (imageLineEnd x b m s) := by
  have h0 : ∀ e : Engine, CardKept s (s.setEngine e) := fun e => .of_eq rfl rfl
  unfold imageLineEnd
  dsimp only
  (repeat' split) <;> first
    | exact (h0 _).trans frameEndStopped_card
    | exact (h0 _).trans frameEndExposed_card
    | exact .of_eq (by simp) (by simp)

theorem floodLineEnd_card {x : Exposure} : CardKept s (floodLineEnd x s) := by
  have h0 : ∀ e : Engine, CardKept s (s.setEngine e) := fun e => .of_eq rfl rfl
  unfold floodLineEnd
  dsimp only
  (repeat' split) <;> first
    | exact (h0 _).trans frameEndStopped_card
    | exact (h0 _).trans frameEndVoid_card
    | exact .of_eq (by simp) (by simp)

theorem frameStart_card : CardKept s (frameStart s) := by
  unfold frameStart
  split
  · exact .refl
  · rename_i x _
    exact CardKept.trans (startCell_card (cell := x.cell)) (.of_eq (by simp) (by simp))

theorem stopEngine_card : CardKept s (stopEngine s) := by
  have h0 : ∀ e : Engine, CardKept s (s.setEngine e) := fun e => .of_eq rfl rfl
  unfold stopEngine engineToIdle
  (repeat' split) <;> first
    | exact .refl
    | exact h0 _
    | exact frameEndStopped_card
    | exact (h0 _).trans frameEndStopped_card

theorem engineFault_card : CardKept s (engineFault s) := by
  unfold engineFault engineToIdle
  split <;> first
    | exact .refl
    | exact .of_eq rfl rfl
    | exact handOver_card (by decide) (.inr (.inr rfl))

/-! ### The job controller -/

theorem endingActions_card : CardKept s (endingActions s) :=
  CardKept.trans (.of_eq (by simp) (by simp)) stopEngine_card

theorem fullResetAtStop_card : CardKept s (fullResetAtStop s) :=
  CardKept.trans (.of_eq (by simp) (by simp)) (requestMotion_card (by decide))

theorem takeStopSignal_card : CardKept s (takeStopSignal s) := by
  have h0 : CardKept s (s.setJob { s.job with onStop := none }) := .of_eq rfl rfl
  unfold takeStopSignal disposeCard
  dsimp only
  (repeat' split) <;> first
    | exact .refl
    | exact h0
    | exact h0.trans requestReject_card
    | exact h0.trans fullResetAtStop_card

theorem meetOpening_card : CardKept s (meetOpening s) := by
  unfold meetOpening
  split
  · exact .refl
  · rename_i f hf
    dsimp only
    split
    · have h1 : CardKept s (s.setFiche { f with openingMet := true }) := by
        refine .setFiche hf (fun h => ?_) id
        obtain ⟨h1, h2, h3, h4, h5⟩ := h
        exact ⟨h1, h2, h3, h4, h5⟩
      unfold noticeOpening requestMove
      split
      · exact (h1.same (by simp) (by simp)).trans (requestMotion_card (by simp))
      · exact h1.same (by simp) (by simp)
    · exact .refl

theorem completeNoStock_card {f : Fiche} (hf : s.job.fiche = some f) : CardKept s (completeNoStock f s) := by
  unfold completeNoStock
  split
  · have h1 : CardKept s (engineToIdle (clearIntake s)) := .of_eq (by simp) (by simp)
    exact (h1.trans (closeFiche_card (f := f) (by simpa using hf) id id)).same (by simp) (by simp)
  · exact .refl

theorem completeEnding_card : CardKept s (completeEnding s) := by
  unfold completeEnding
  split
  · split
    · exact .of_eq (by simp) (by simp)
    · rename_i f hf
      split
      · exact (CardKept.setFiche hf withDefaultStack_ok id).same (by simp) (by simp)
      · split
        · exact (closeFiche_card hf withDefaultStack_ok id).same (by simp) (by simp)
        · exact .refl
  · exact .refl

theorem completeJob_card : CardKept s (completeJob s) := by
  unfold completeJob
  (repeat' split) <;> first
    | exact .refl
    | exact closeFiche_card ‹_› id id
    | exact completeNoStock_card ‹_›
    | exact completeEnding_card
    | exact (closeFiche_card ‹_› id id).same (by simp) (by simp)

theorem jobProceeds_card : CardKept s (jobProceeds s) :=
  (CardKept.trans (t := composeFopened s) (.of_eq (by simp) (by simp)) closingStep_card).trans completeJob_card

theorem jobTests_card : CardKept s (jobTests s) := by
  have h1 : CardKept s (composeFopened (meetOpening (takeStopSignal s))) :=
    (takeStopSignal_card.trans meetOpening_card).same (by simp) (by simp)
  exact ((h1.trans closingStep_card).trans completeJob_card).same (by simp [jobTests]) (by simp [jobTests])

theorem takeNoStock_card : CardKept s (takeNoStock s) := by
  have h1 : CardKept s (setStack .noStack (setOutcome .noStock s)) := setOutcome_card.trans (setStack_card (by decide))
  unfold takeNoStock
  dsimp only
  (repeat' split) <;> first
    | exact .refl
    | exact h1.same (by simp) (by simp)

theorem takeHeadNotReady_card : CardKept s (takeHeadNotReady s) := by
  unfold takeHeadNotReady
  split
  · exact setOutcome_card.trans endingActions_card
  · exact .refl

theorem takeTransportFault_card {c : TransportCode} : CardKept s (takeTransportFault c s) := by
  unfold takeTransportFault
  split
  · exact .refl
  · exact CardKept.trans (recordFault_card (c := c)) (CardKept.trans (.of_eq (by simp) (by simp)) engineFault_card)

theorem transportFault_card {c : TransportCode} {f : InFlight} : CardKept s (transportFault c f s) := by
  have h1 : CardKept s (s.setTransport { s.transport with
      timer := none, inFlight := none, faultCode := c, card := .fault, position := none }) := .landed rfl rfl
  have h2 : ∀ b u, CardKept u (transportAlert c f b u) := fun b u => .of_eq (by simp) (by simp)
  unfold transportFault
  exact ((h1.trans discardPending_card).trans (h2 _ _)).trans (takeTransportFault_card.trans takePending_card)

theorem loadNoStock_card : CardKept s (loadNoStock s) := by
  have h1 : CardKept s (s.setTransport { s.transport with
      timer := none, inFlight := none, card := .empty, position := none }) := .landed rfl rfl
  exact (h1.trans takeNoStock_card).trans takePending_card

theorem motionDone_card {f : InFlight} : CardKept s (motionDone f s) := by
  have h1 : ∀ m u, CardKept u (tellDone m u) := by
    intro m u
    unfold tellDone
    (repeat' split) <;> first
      | exact .refl
      | exact requestReject_card
      | exact frameStart_card
      | exact .of_eq (by simp) (by simp)
  have h2 : CardKept s (s.setTransport { s.transport with
      timer := none, inFlight := none, card := f.motion.cardDone, position := f.motion.positionDone
      faultCode := if f.motion = .home then .noFault else s.transport.faultCode }) := .landed rfl rfl
  exact (h2.trans (h1 _ _)).trans takePending_card

end Sys2Proof.Machine
end

