-- ==== Sys2Proof/Laws/HeadKept.lean ====
section
/-!
SUPPORT. Every shared operation keeps `HeadOk`.
-/

namespace Sys2Proof.Machine

variable {s t : State}

/-- `HeadOk` reads the head monitor and the tables. -/
theorem HeadOk.same (h : HeadOk s) (hh : t.head = s.head) (ht : t.tables = s.tables) : HeadOk t := by
  obtain ⟨h1, h2, h3, h4, h5, h6, h7, h8, h9, h10, h11, h12⟩ := h
  have hp := State.profile_eq ht
  exact ⟨by rwa [hh], by rwa [hh], by rwa [hh], by rwa [hh], by rwa [hh], by rwa [hh], by rwa [hh], by rwa [hh],
    by rwa [hh], by rwa [hh], by rwa [hh, ht, hp], by rwa [hh, ht]⟩

theorem takePending_headOk (h : HeadOk s) : HeadOk (takePending s) := h.same (by simp) (by simp)

theorem clearAlerts_headOk (h : HeadOk s) : HeadOk (clearAlerts s) := by
  obtain ⟨h1, h2, h3, h4, h5, h6, h7, h8, h9, h10, h11, h12⟩ := h
  exact ⟨h1, h2, h3, h4, h5, h6, h7, h8, h9, h10, h11, fun _ => ⟨rfl, rfl⟩⟩

/-- Parking leaves a head in order whatever the tables hold (R109). -/
theorem parkHead_headOk {tb : Tables} (h : HeadOk s) (hp : tb.pins = s.tables.pins) :
    HeadOk (parkHead (s.setTables tb)) := by
  obtain ⟨h1, h2, h3, h4, h5, h6, h7, h8, h9, h10, h11, h12⟩ := h
  constructor <;> simp only [parkHead, State.setHead_head, State.setHead_tables, State.setTables_tables,
    State.setTables_head, reduceCtorEq, false_imp_iff, implies_true, Option.isSome_none, Bool.false_eq_true] <;>
    first
    | assumption
    | decide
    | simp
    | (rw [hp]; assumption)

theorem parkHead_headOk' (h : HeadOk s) : HeadOk (parkHead s) := parkHead_headOk (tb := s.tables) h rfl

theorem startPark_headOk (h : HeadOk s) : HeadOk (startPark s) := by
  unfold startPark
  split
  · rename_i hc
    obtain ⟨h1, h2, h3, h4, h5, h6, h7, h8, h9, h10, h11, h12⟩ := h
    exact ⟨h1, h2, h3, h4, h5, h6, h7, h8, fun _ => hc.2.1, h10, h11, h12⟩
  · exact h

/-- At the release of the pins (R114) the alert states are CLEAR. -/
theorem releasePins_headOk (h : HeadOk s) : HeadOk (releasePins s) := by
  unfold releasePins
  split
  · exact h
  · obtain ⟨h1, h2, h3, h4, h5, h6, h7, h8, h9, h10, h11, h12⟩ := h
    exact ⟨h1, h2, h3, by simp [headUnpinned], by simp [headUnpinned], by simp [headUnpinned],
      fun hp => ⟨(h7 hp).1, rfl, rfl, (h7 hp).2.2.2⟩, h8, h9, h10, by simp, fun _ => ⟨rfl, rfl⟩⟩

theorem enterIdle_headOk (h : HeadOk s) : HeadOk (enterIdle s) :=
  startPark_headOk ((releasePins_headOk h).same rfl rfl)

/-- The request for READY (R125, R126) under a pinned profile whose warm count is at least 1. -/
theorem askReady_headOk (h : HeadOk s) (hw : 1 ≤ s.profile.warmCount) : HeadOk (askReady s) := by
  obtain ⟨h1, h2, h3, h4, h5, h6, h7, h8, h9, h10, h11, h12⟩ := h
  unfold askReady
  split
  · constructor <;> simp only [State.setHead_head, State.setHead_tables, reduceCtorEq, false_imp_iff] <;> first
      | assumption
      | exact fun _ _ => hw
      | (intro hp; have := h9 hp; simp_all)
      | simp
  · exact ⟨h1, h2, h3, h4, h5, h6, h7, h8, h9, h10, h11, h12⟩
  · exact ⟨h1, h2, h3, h4, h5, h6, h7, h8, by simp, h10, h11, h12⟩

/-- c stays within its clamp (R122). -/
theorem correctionOf_range (p : Profile) (m : Nat) :
    Config.cMin ≤ (correctionOf p m).1 ∧ (correctionOf p m).1 ≤ Config.cMax := by
  unfold correctionOf
  (repeat' split) <;> simp [Config.cMin, Config.cMax, Config.unity]

/-- `HeadOk` without the bound on the average count, which a conversion may just have reached (R111). -/
structure HeadCore (s : State) : Prop where
  c_range : Config.cMin ≤ s.head.c ∧ s.head.c ≤ Config.cMax
  raw_le : s.head.raw ≤ 65535
  mAvg_le : s.head.mAvg ≤ 65535
  sum_le : s.head.sum ≤ 65535 * s.head.count
  len_none : s.head.len = none → s.head.count = 0
  parked : s.head.state = .parked → s.head.mValid = false ∧ s.head.sum = 0 ∧ s.head.count = 0
    ∧ s.head.c = Config.unity ∧ s.head.sat = false ∧ s.head.warmCounter = 0
  warm_timer : s.head.warmTimer.isSome = true ↔ s.head.state = .warming
  park_timer : s.head.parkTimer.isSome = true → s.head.state = .ready
  warm_le : s.head.warmCounter ≤ 255
  warm_lt : s.head.state = .warming → s.tables.pins.isSome = true → s.head.warmCounter < s.profile.warmCount
  unpinned_clear : s.tables.pins = none → s.head.overActive = false ∧ s.head.underActive = false

theorem HeadOk.core (h : HeadOk s) : HeadCore s := by
  obtain ⟨h1, h2, h3, h4, h5, _, h7, h8, h9, h10, h11, h12⟩ := h
  exact ⟨h1, h2, h3, h4, h5, h7, h8, h9, h10, h11, h12⟩

theorem HeadCore.ok (h : HeadCore s) (hl : ∀ n, s.head.len = some n → n ∈ [1, 4, 16, 64] ∧ s.head.count < n) :
    HeadOk s := by
  obtain ⟨h1, h2, h3, h4, h5, h7, h8, h9, h10, h11, h12⟩ := h
  exact ⟨h1, h2, h3, h4, h5, hl, h7, h8, h9, h10, h11, h12⟩

theorem HeadCore.same (h : HeadCore s) (hh : t.head = s.head) (ht : t.tables = s.tables) : HeadCore t := by
  obtain ⟨h1, h2, h3, h4, h5, h7, h8, h9, h10, h11, h12⟩ := h
  have hp := State.profile_eq ht
  exact ⟨by rwa [hh], by rwa [hh], by rwa [hh], by rwa [hh], by rwa [hh], by rwa [hh], by rwa [hh],
    by rwa [hh], by rwa [hh], by rwa [hh, ht, hp], by rwa [hh, ht]⟩

theorem computeCorrection_core (h : HeadCore s) (hv : s.head.state ≠ .parked) : HeadCore (computeCorrection s) := by
  obtain ⟨h1, h2, h3, h4, h5, h7, h8, h9, h10, h11, h12⟩ := h
  exact ⟨correctionOf_range _ _, h2, h3, h4, h5, fun hp => absurd hp hv, h8, h9, h10, h11, h12⟩

/-- m_avg valid only while the head is not PARKED (R109). -/
theorem HeadOk.not_parked (h : HeadOk s) (hv : s.head.mValid = true) : s.head.state ≠ .parked := by
  intro hp
  have := (h.parked hp).1
  simp [hv] at this

/-- The pin told to the head monitor (R113), where the tables hold pins on a profile with a warm count of at least 1. -/
theorem headPinned_headOk (h : HeadOk s) (hh : t.head = s.head) (hw : 1 ≤ t.profile.warmCount) :
    HeadOk (headPinned t) := by
  have hp := h.not_parked
  obtain ⟨h1, h2, h3, h4, h5, h6, h7, h8, h9, h10, h11, h12⟩ := h
  rw [← hh] at h1 h2 h3 h7 h8 h9 hp
  have h1 : HeadOk (clearAlerts (t.setHead { t.head with sum := 0, count := 0, len := none, warmCounter := 0 })) :=
    ⟨h1, h2, h3, by simp, by simp, by simp,
      fun hp => ⟨(h7 hp).1, rfl, rfl, (h7 hp).2.2.2.1, (h7 hp).2.2.2.2.1, rfl⟩, h8, h9, by simp, fun _ _ => hw,
      fun _ => ⟨rfl, rfl⟩⟩
  unfold headPinned
  dsimp only
  split
  · rename_i hv
    exact (computeCorrection_core h1.core (hp hv)).ok (by simp)
  · exact h1

theorem compareValue_core {v : Nat} (h : HeadCore s) (hp : s.tables.pins.isSome = true) :
    HeadCore (compareValue v s) := by
  have h1 : ∀ (u : State) (a b : Bool), HeadCore u → u.tables.pins.isSome = true →
      HeadCore (u.setHead { u.head with overActive := a, underActive := b }) := by
    intro u a b hu hp
    obtain ⟨h1, h2, h3, h4, h5, h7, h8, h9, h10, h11, h12⟩ := hu
    refine ⟨h1, h2, h3, h4, h5, h7, h8, h9, h10, h11, fun hn => ?_⟩
    simp only [State.setHead_tables] at hn
    simp [hn] at hp
  have h2 : ∀ k a b c u, HeadCore u → HeadCore (limitAlert k a b c u) := fun _ _ _ _ _ hu =>
    hu.same (by simp) (by simp)
  unfold compareValue
  dsimp only
  refine h2 _ _ _ _ _ (h2 _ _ _ _ _ ?_)
  split
  · exact h1 _ _ _ (h.same (by simp) (by simp)) (by simpa using hp)
  · exact h1 _ _ _ h hp

/-- The rounded mean stays within the samples' range (R111). -/
theorem averageOf_le {sum n : Nat} (hn : 0 < n) (h : sum ≤ 65535 * n) : averageOf sum n ≤ 65535 := by
  unfold averageOf
  rw [← Nat.lt_succ_iff, Nat.div_lt_iff_lt_mul hn]
  omega

theorem startPark_core (h : HeadCore s) : HeadCore (startPark s) := by
  unfold startPark
  split
  · rename_i hc
    obtain ⟨h1, h2, h3, h4, h5, h7, h8, h9, h10, h11, h12⟩ := h
    exact ⟨h1, h2, h3, h4, h5, h7, h8, fun _ => hc.2.1, h10, h11, h12⟩
  · exact h

theorem updateWarm_core (h : HeadCore s) (hw : s.profile.warmCount ≤ 255) : HeadCore (updateWarm s) := by
  unfold updateWarm
  by_cases hc : s.head.state = .warming ∧ s.tables.pins.isSome = true
  · rw [if_pos hc]
    have hk := h.warm_lt hc.1 hc.2
    dsimp only
    generalize hkk : (if s.profile.underLimit ≤ s.head.mAvg ∧ s.head.mAvg ≤ s.profile.overLimit then
      s.head.warmCounter + 1 else 0) = k
    have hkb : k ≤ 255 := by rw [← hkk]; split <;> omega
    obtain ⟨h1, h2, h3, h4, h5, h7, h8, h9, h10, h11, h12⟩ := h
    split
    · refine startPark_core ?_
      exact ⟨h1, h2, h3, h4, h5, by simp, by simp, by simp, hkb, by simp, h12⟩
    · rename_i hn
      refine ⟨h1, h2, h3, h4, h5, by simp [hc.1], h8, h9, hkb, fun _ _ => ?_, h12⟩
      exact Nat.lt_of_not_le hn
  · rw [if_neg hc]
    exact h

theorem completeAverage_headOk {n : Nat} (h : HeadCore s) (hn : 0 < n) (hs : s.head.sum ≤ 65535 * n)
    (hr : s.head.state ≠ .parked) (hw : s.profile.warmCount ≤ 255) : HeadOk (completeAverage n s) := by
  have h1 : HeadCore (s.setHead { s.head with
      mAvg := averageOf s.head.sum n, mValid := true, sum := 0, count := 0, len := none }) := by
    obtain ⟨h1, h2, h3, h4, h5, h7, h8, h9, h10, h11, h12⟩ := h
    exact ⟨h1, h2, averageOf_le hn hs, by simp, by simp, fun hp => absurd hp hr, h8, h9, h10, h11, h12⟩
  unfold completeAverage
  dsimp only
  generalize hu1 : s.setHead { s.head with
      mAvg := averageOf s.head.sum n, mValid := true, sum := 0, count := 0, len := none } = u at h1
  have hut : s.tables = u.tables := by rw [← hu1]; rfl
  have hus : u.head.state = s.head.state := by rw [← hu1]; rfl
  have hul : u.head.len = none := by rw [← hu1]; rfl
  have hup : s.profile = u.profile := State.profile_eq hut
  rw [hut, hup]
  rw [hup] at hw
  generalize hu2 : (if (u.tables.pins.isSome && u.profile.basis == .averaged) = true then compareValue u.head.mAvg u
      else u) = v
  have h2 : HeadCore v := by
    rw [← hu2]
    split
    · rename_i hc
      simp only [Bool.and_eq_true] at hc
      exact compareValue_core h1 hc.1
    · exact h1
  have hvt : v.tables = u.tables := by rw [← hu2]; split <;> simp
  have hvs : v.head.state = u.head.state := by rw [← hu2]; split <;> simp
  have hvl : v.head.len = none := by rw [← hu2]; split <;> simp [hul]
  generalize hu3 : (if u.tables.pins.isSome = true then computeCorrection v else v) = w
  have h3 : HeadCore w := by
    rw [← hu3]
    split
    · exact computeCorrection_core h2 (by rw [hvs, hus]; exact hr)
    · exact h2
  have hwt : w.tables = u.tables := by rw [← hu3]; split <;> simp [hvt]
  have hwl : w.head.len = none := by rw [← hu3]; split <;> simp [hvl]
  exact (updateWarm_core h3 (by rw [State.profile_eq hwt]; exact hw)).ok (by simp [hwl])

/-- An average's length is one R163 admits, where the tables are in order (R111). -/
theorem averageLength_mem (ht : TablesOk s) : averageLength s ∈ [1, 4, 16, 64] := by
  have hok : ∀ p : Profile, p.ok = true → p.averaging ∈ [1, 4, 16, 64] := by
    intro p hp
    simp only [Profile.ok, Bool.and_eq_true, Bool.or_eq_true, beq_iff_eq] at hp
    simp only [List.mem_cons, List.not_mem_nil, or_false]
    omega
  have hen : ∀ n, (s.tables.profileEntry n).valid = true → (s.tables.profileEntry n).fields.ok = true := by
    intro n hv
    unfold Tables.profileEntry at hv ⊢
    rw [List.getD_eq_getElem?_getD] at hv ⊢
    cases hx : s.tables.profiles[n]? with
    | none => simp [hx] at hv
    | some e =>
      have := ht.profiles_ok e (List.mem_of_getElem? hx)
      simp only [hx, Option.getD_some] at hv ⊢
      simpa [hv] using this
  unfold averageLength
  split
  · rename_i hp
    unfold State.profile
    cases hpin : s.tables.pins with
    | none => simp [hpin] at hp
    | some p =>
      have ho := (ht.pins_ok p hpin).2.1
      simp only [Tables.openable, Bool.and_eq_true] at ho
      exact hok _ (hen _ ho.1.1)
  · split
    · exact hok _ (hen _ (by assumption))
    · decide

/-- The pinned profile's fields are in range, where the tables are in order. -/
theorem pinnedProfile_ok (ht : TablesOk s) (hp : s.tables.pins.isSome = true) : s.profile.ok = true := by
  unfold State.profile
  cases hpin : s.tables.pins with
  | none => simp [hpin] at hp
  | some p =>
    have ho := (ht.pins_ok p hpin).2.1
    simp only [Tables.openable, Bool.and_eq_true] at ho
    have hv := ho.1.1
    unfold Tables.profileEntry at hv ⊢
    simp only [List.getD_eq_getElem?_getD] at hv ⊢
    cases hx : s.tables.profiles[p.profile]? with
    | none => simp [hx] at hv
    | some e =>
      have := ht.profiles_ok e (List.mem_of_getElem? hx)
      simp only [hx, Option.getD_some] at hv ⊢
      simpa [hv] using this

theorem profile_warmCount_le (ht : TablesOk s) : s.profile.warmCount ≤ 255 := by
  by_cases hp : s.tables.pins.isSome = true
  · have := pinnedProfile_ok ht hp
    simp only [Profile.ok, Bool.and_eq_true, decide_eq_true_eq] at this
    omega
  · unfold State.profile
    cases hpin : s.tables.pins with
    | none => simp [Profile.zero]
    | some p => simp [hpin] at hp

theorem takeConversion_headOk {raw : Nat} (h : HeadOk s) (ht : TablesOk s) (hr : raw ≤ 65535)
    (hs : s.head.state ≠ .parked) : HeadOk (takeConversion raw s) := by
  have hn : s.head.len.getD (averageLength s) ∈ [1, 4, 16, 64] ∧ s.head.count < s.head.len.getD (averageLength s) := by
    cases hl : s.head.len with
    | none =>
      have hm := averageLength_mem ht
      have := h.len_none hl
      refine ⟨hm, ?_⟩
      simp only [Option.getD_none, this]
      simp only [List.mem_cons, List.not_mem_nil, or_false] at hm
      omega
    | some n => exact h.len_some n hl
  have hw := profile_warmCount_le ht
  unfold takeConversion
  dsimp only
  generalize s.head.len.getD (averageLength s) = n at hn
  generalize hu : s.setHead { s.head with raw := raw, sum := s.head.sum + raw, count := s.head.count + 1, len := some n }
    = u
  have h1 : HeadCore u := by
    rw [← hu]
    obtain ⟨h1, h2, h3, h4, h5, h6, h7, h8, h9, h10, h11, h12⟩ := h
    refine ⟨h1, hr, h3, ?_, by simp, fun hp => absurd hp hs, h8, h9, h10, h11, h12⟩
    simp only [State.setHead_head]
    omega
  have hut : s.tables = u.tables := by rw [← hu]; rfl
  have hup : s.profile = u.profile := State.profile_eq hut
  have hus : u.head.state = s.head.state := by rw [← hu]; rfl
  have huc : u.head.count = s.head.count + 1 := by rw [← hu]; rfl
  have hul : u.head.len = some n := by rw [← hu]; rfl
  rw [hut, hup]
  rw [hup] at hw
  generalize hv : (if (u.tables.pins.isSome && u.profile.basis == .raw) = true then compareValue raw u else u) = v
  have h2 : HeadCore v := by
    rw [← hv]
    split
    · rename_i hc
      simp only [Bool.and_eq_true] at hc
      exact compareValue_core h1 hc.1
    · exact h1
  have hvt : v.tables = u.tables := by rw [← hv]; split <;> simp
  have hvs : v.head.state = u.head.state := by rw [← hv]; split <;> simp
  have hvc : v.head.count = u.head.count := by rw [← hv]; split <;> simp
  have hvl : v.head.len = u.head.len := by rw [← hv]; split <;> simp
  split
  · rename_i hc
    refine completeAverage_headOk h2 (by omega) (by rw [← hc]; exact h2.sum_le) (by rw [hvs, hus]; exact hs) ?_
    rw [State.profile_eq hvt]
    exact hw
  · rename_i hc
    refine h2.ok fun k hk => ?_
    rw [hvl, hul] at hk
    cases hk
    exact ⟨hn.1, by omega⟩

/-! ### The job controller -/

theorem closeFiche_headOk {f : Fiche} (h : HeadOk s) : HeadOk (closeFiche f s) := h.same (by simp) (by simp)

theorem fullResetAtStop_headOk (h : HeadOk s) : HeadOk (fullResetAtStop s) :=
  (parkHead_headOk (tb := { Tables.reset with pins := s.tables.pins }) h rfl).same (by simp [fullResetAtStop])
    (by simp [fullResetAtStop])

theorem takeStopSignal_headOk (h : HeadOk s) : HeadOk (takeStopSignal s) := by
  unfold takeStopSignal
  (repeat' split) <;> first
    | exact h
    | exact fullResetAtStop_headOk (h.same rfl rfl)
    | exact h.same (by simp) (by simp)

theorem completeNoStock_headOk {f : Fiche} (h : HeadOk s) : HeadOk (completeNoStock f s) := by
  unfold completeNoStock
  split
  · exact enterIdle_headOk (h.same (by simp) (by simp))
  · exact h

theorem completeEnding_headOk (h : HeadOk s) : HeadOk (completeEnding s) := by
  unfold completeEnding
  (repeat' split) <;> first
    | exact h
    | exact enterIdle_headOk h
    | exact enterIdle_headOk (h.same (by simp) (by simp))

theorem completeJob_headOk (h : HeadOk s) : HeadOk (completeJob s) := by
  unfold completeJob
  (repeat' split) <;> first
    | exact h
    | exact enterIdle_headOk (closeFiche_headOk h)
    | exact completeNoStock_headOk h
    | exact completeEnding_headOk h
    | exact closeFiche_headOk h

theorem jobProceeds_headOk (h : HeadOk s) : HeadOk (jobProceeds s) :=
  completeJob_headOk (h.same (by simp) (by simp))

theorem jobTests_headOk (h : HeadOk s) : HeadOk (jobTests s) := by
  have h1 : HeadOk (closingStep (composeFopened (meetOpening (takeStopSignal s)))) :=
    (takeStopSignal_headOk h).same (by simp) (by simp)
  exact (completeJob_headOk h1).same (by simp [jobTests]) (by simp [jobTests])

theorem endingActions_headOk (h : HeadOk s) : HeadOk (endingActions s) := h.same (by simp) (by simp)

theorem takeHeadNotReady_headOk (h : HeadOk s) : HeadOk (takeHeadNotReady s) := h.same (by simp) (by simp)

theorem transportFault_headOk {c : TransportCode} {f : InFlight} (h : HeadOk s) : HeadOk (transportFault c f s) :=
  h.same (by simp) (by simp)

theorem loadNoStock_headOk (h : HeadOk s) : HeadOk (loadNoStock s) := h.same (by simp) (by simp)

theorem motionDone_headOk {f : InFlight} (h : HeadOk s) : HeadOk (motionDone f s) := by
  have h1 : ∀ m u, HeadOk u → HeadOk (tellDone m u) := by
    intro m u hu
    unfold tellDone
    (repeat' split) <;> first
      | exact hu
      | exact enterIdle_headOk hu
      | exact hu.same (by simp) (by simp)
  exact takePending_headOk (h1 _ _ (h.same (by simp) (by simp)))

end Sys2Proof.Machine
end

