-- ==== Sys2Proof/Laws/TablesKept.lean ====
section
/-!
SUPPORT. Every shared operation keeps `TablesOk`.
-/

namespace Sys2Proof.Machine

variable {s t : State}

/-- `TablesOk` reads the tables and whether a RESET FULL's clearing is awaited. -/
theorem TablesOk.frame (h : TablesOk s) (ht : t.tables = s.tables)
    (hj : t.job.onStop = some .resetFull → s.job.onStop = some .resetFull) : TablesOk t := by
  obtain ⟨h1, h2, h3, h4, h5, h6, h7, h8, h9⟩ := h
  rw [← ht] at h1 h2 h3 h4 h5 h6 h7 h8 h9
  exact ⟨h1, h2, h3, h4, h5, h6, h7, h8, fun h => h9 (hj h)⟩

/-- An operation that leaves the tables and the job controller's wait alone keeps `TablesOk`. -/
theorem TablesOk.same (h : TablesOk s) (ht : t.tables = s.tables) (hj : t.job.onStop = s.job.onStop) : TablesOk t :=
  h.frame ht (by rw [hj]; exact id)

theorem takePending_tablesOk (h : TablesOk s) : TablesOk (takePending s) := h.same (by simp) (by simp)

theorem releasePins_tablesOk (h : TablesOk s) : TablesOk (releasePins s) := by
  unfold releasePins
  split
  · exact h
  · obtain ⟨h1, h2, h3, h4, h5, h6, h7, h8, h9⟩ := h
    exact ⟨by simpa using h1, by simpa using h2, by simpa using h3, by simpa using h4, by simpa using h5,
      by simpa using h6, by simpa using h7, by simp, by simp⟩

theorem enterIdle_tablesOk (h : TablesOk s) : TablesOk (enterIdle s) :=
  (releasePins_tablesOk h).same (by simp [enterIdle]) (by simp [enterIdle])

theorem closeFiche_tablesOk {f : Fiche} (h : TablesOk s) : TablesOk (closeFiche f s) := h.same (by simp) (by simp)

/-- The tables of power-on are in order (R178). -/
theorem tablesReset_ok (hp : s.tables.pins = none) :
    TablesOk (s.setTables { Tables.reset with pins := s.tables.pins }) := by
  have hl : ∀ n (e : LayoutEntry), e ∈ List.replicate n { valid := false, fields := Layout.zero } →
      e = { valid := false, fields := Layout.zero } := fun n e he => (List.mem_replicate.mp he).2
  have hq : ∀ n (e : ProfileEntry), e ∈ List.replicate n { valid := false, fields := Profile.zero } →
      e = { valid := false, fields := Profile.zero } := fun n e he => (List.mem_replicate.mp he).2
  constructor
  · exact List.length_replicate
  · exact List.length_replicate
  · exact List.length_replicate
  · intro e he; rw [hl _ e he]; rfl
  · intro e he; rw [hq _ e he]; rfl
  · intro c hc
    rw [(List.mem_replicate.mp hc).2]
    exact ⟨List.length_replicate, fun v hv => by rw [(List.mem_replicate.mp hv).2]; omega⟩
  · exact (by decide : Config.defaultParkDelay ≤ 255)
  · intro p hp'; simp [hp] at hp'
  · exact fun _ => hp

theorem takeStopSignal_tablesOk (h : TablesOk s) : TablesOk (takeStopSignal s) := by
  unfold takeStopSignal
  split
  · exact h
  · rename_i why hw
    split
    · cases why with
      | disposal => exact h.frame (by simp) (by simp)
      | resetFull =>
        exact (tablesReset_ok (s := s.setJob { s.job with onStop := none }) (h.clearing_unpinned hw)).same (by simp [fullResetAtStop]) (by simp [fullResetAtStop])
    · exact h

theorem completeNoStock_tablesOk {f : Fiche} (h : TablesOk s) : TablesOk (completeNoStock f s) := by
  unfold completeNoStock
  split
  · exact enterIdle_tablesOk (h.same (by simp) (by simp))
  · exact h

theorem completeEnding_tablesOk (h : TablesOk s) : TablesOk (completeEnding s) := by
  unfold completeEnding
  (repeat' split) <;> first
    | exact h
    | exact enterIdle_tablesOk h
    | exact enterIdle_tablesOk (h.same (by simp) (by simp))

theorem completeJob_tablesOk (h : TablesOk s) : TablesOk (completeJob s) := by
  unfold completeJob
  (repeat' split) <;> first
    | exact h
    | exact enterIdle_tablesOk (closeFiche_tablesOk h)
    | exact completeNoStock_tablesOk h
    | exact completeEnding_tablesOk h
    | exact closeFiche_tablesOk h

theorem jobProceeds_tablesOk (h : TablesOk s) : TablesOk (jobProceeds s) :=
  completeJob_tablesOk (h.same (by simp) (by simp))

theorem jobTests_tablesOk (h : TablesOk s) : TablesOk (jobTests s) := by
  have h1 : TablesOk (closingStep (composeFopened (meetOpening (takeStopSignal s)))) :=
    (takeStopSignal_tablesOk h).same (by simp) (by simp)
  exact (completeJob_tablesOk h1).same (by simp [jobTests]) (by simp [jobTests])

theorem endingActions_tablesOk (h : TablesOk s) : TablesOk (endingActions s) := by
  refine h.frame (by simp) ?_
  simp [endingActions]

theorem takeNoStock_tablesOk (h : TablesOk s) : TablesOk (takeNoStock s) := h.same (by simp) (by simp)

theorem takeHeadNotReady_tablesOk (h : TablesOk s) : TablesOk (takeHeadNotReady s) := by
  unfold takeHeadNotReady
  split
  · exact endingActions_tablesOk (h.same (by simp) (by simp))
  · exact h

theorem takeTransportFault_tablesOk {c : TransportCode} (h : TablesOk s) : TablesOk (takeTransportFault c s) := by
  refine h.frame (by simp) ?_
  unfold takeTransportFault
  split
  · exact id
  · simp only [engineFault_frame, clearIntake_frame, State.setJob_job, recordFault_frame, keepFullReset]
    split <;> simp_all

theorem transportFault_tablesOk {c : TransportCode} {f : InFlight} (h : TablesOk s) : TablesOk (transportFault c f s) := by
  unfold transportFault
  exact takePending_tablesOk (takeTransportFault_tablesOk (h.same (by simp) (by simp)))

theorem loadNoStock_tablesOk (h : TablesOk s) : TablesOk (loadNoStock s) := h.same (by simp) (by simp)

theorem motionDone_tablesOk {f : InFlight} (h : TablesOk s) : TablesOk (motionDone f s) := by
  have h1 : ∀ m u, TablesOk u → TablesOk (tellDone m u) := by
    intro m u hu
    unfold tellDone
    (repeat' split) <;> first
      | exact hu
      | exact enterIdle_tablesOk hu
      | exact hu.same (by simp) (by simp)
  exact takePending_tablesOk (h1 _ _ (h.same (by simp) (by simp)))

end Sys2Proof.Machine
end

