-- ==== Sys2Proof/Laws/DosesKept.lean ====
section
/-!
SUPPORT. Every shared operation keeps `DosesOk`. `LineEnv` gathers what a line start reads of the tables and the head.
-/

namespace Sys2Proof.Machine

variable {s t : State}

/-! ### The three parts -/

/-- The exposure engine's part of `DosesOk`. -/
def LineDoses (e : Engine) : Prop :=
  WidthsOk e.widths ∧ e.m ≤ 65535 ∧
  (∀ bases mRef, e.driven = some (.image bases mRef) → WidthsOk bases ∧ mRef ≤ 65535) ∧
  ∀ x, e.exposure = some x →
    x.a ≤ lineDoseBound * (x.linesExposed + x.linesFlooded) ∧ x.p ≤ lineDoseBound * x.linesExposed

/-- Page intake's part of `DosesOk`. -/
def StoreDoses (i : Intake) : Prop :=
  (∀ l ∈ i.store, l.grays.length ≤ Config.emitters) ∧ (∀ c ∈ i.contexts, PageFits c) ∧
  ∀ c, i.orphan = some c → PageFits c

/-- A cell's A and P lie within their bounds by its lines (R99). -/
def CellFits (c : Cell) : Prop :=
  c.a.getD 0 ≤ lineDoseBound * (c.linesExposed + c.linesFlooded) ∧ c.p.getD 0 ≤ lineDoseBound * c.linesExposed

/-- The fiche record's part of `DosesOk`. -/
def CellDoses (o : Option Fiche) : Prop := ∀ f, o = some f → ∀ c ∈ f.map, CellFits c

theorem dosesOk_iff : DosesOk s ↔ LineDoses s.engine ∧ StoreDoses s.intake ∧ CellDoses s.job.fiche := by
  constructor
  · rintro ⟨h1, h2, h3, h4, h5, h6, h7, h8⟩
    exact ⟨⟨h1, h2, h3, h7⟩, ⟨h4, h5, h6⟩, h8⟩
  · rintro ⟨⟨h1, h2, h3, h7⟩, ⟨h4, h5, h6⟩, h8⟩
    exact ⟨h1, h2, h3, h4, h5, h6, h7, h8⟩

theorem DosesOk.line (h : DosesOk s) : LineDoses s.engine := (dosesOk_iff.mp h).1
theorem DosesOk.store (h : DosesOk s) : StoreDoses s.intake := (dosesOk_iff.mp h).2.1
theorem DosesOk.cells (h : DosesOk s) : CellDoses s.job.fiche := (dosesOk_iff.mp h).2.2

/-- An operation that leaves the engine, the pages and lines, and the fiche record alone keeps `DosesOk`. -/
theorem DosesOk.same (h : DosesOk s) (he : t.engine = s.engine) (hs : t.intake.store = s.intake.store)
    (hc : t.intake.contexts = s.intake.contexts) (ho : t.intake.orphan = s.intake.orphan)
    (hf : t.job.fiche = s.job.fiche) : DosesOk t := by
  obtain ⟨h1, h2, h3, h4, h5, h6, h7, h8⟩ := h
  rw [← he] at h1 h2 h3 h7
  rw [← hs] at h4
  rw [← hc] at h5
  rw [← ho] at h6
  rw [← hf] at h8
  exact ⟨h1, h2, h3, h4, h5, h6, h7, h8⟩

theorem DosesOk.setEngine {e : Engine} (h : DosesOk s) (he : LineDoses e) : DosesOk (s.setEngine e) :=
  dosesOk_iff.mpr ⟨he, h.store, h.cells⟩

theorem DosesOk.setIntake {i : Intake} (h : DosesOk s) (hi : StoreDoses i) : DosesOk (s.setIntake i) :=
  dosesOk_iff.mpr ⟨h.line, hi, h.cells⟩

/-- The job controller's record is replaced by one whose cells keep the bounds. -/
theorem DosesOk.setJob {j : Job} (h : DosesOk s) (hj : CellDoses j.fiche) : DosesOk (s.setJob j) :=
  dosesOk_iff.mpr ⟨h.line, h.store, hj⟩

theorem CellDoses.sameMap {f g : Fiche} (h : CellDoses (some f)) (hm : g.map = f.map) : CellDoses (some g) := by
  intro x hx c hc
  cases hx
  exact h f rfl c (hm ▸ hc)

/-- The fiche record is replaced by one with the same map. -/
theorem DosesOk.setFiche {f g : Fiche} (h : DosesOk s) (hf : s.job.fiche = some f) (hm : g.map = f.map) :
    DosesOk (s.setFiche g) :=
  h.setJob (CellDoses.sameMap (hf ▸ h.cells) hm)

/-! ### What a line start reads -/

/-- The tables' and the head's ranges that a line start relies on (R110, R159, R161, R163, R164). -/
structure LineEnv (s : State) : Prop where
  wc_le : s.layout.wc ≤ Config.emitters
  curve_le : ∀ v ∈ s.curve, v ≤ 8191
  pulse_le : s.profile.pulseMax ≤ 8191
  void_le : s.profile.voidPulse ≤ 8191
  mRef_le : s.profile.mRef ≤ 65535
  mAvg_le : s.head.mAvg ≤ 65535

theorem LineEnv.same (h : LineEnv s) (ht : t.tables = s.tables) (hm : t.head.mAvg = s.head.mAvg) : LineEnv t := by
  obtain ⟨h1, h2, h3, h4, h5, h6⟩ := h
  rw [← State.layout_eq ht] at h1
  rw [← State.curve_eq ht] at h2
  rw [← State.profile_eq ht] at h3 h4 h5
  exact ⟨h1, h2, h3, h4, h5, hm ▸ h6⟩

theorem pinnedLayout_wc (ht : TablesOk s) : s.layout.wc ≤ Config.emitters := by
  unfold State.layout
  cases hp : s.tables.pins with
  | none => simp [Layout.zero, Config.emitters]
  | some p =>
    obtain ⟨-, ho, hl, -⟩ := ht.pins_ok p hp
    simp only [Tables.openable, Bool.and_eq_true] at ho
    have hv := ho.1.2
    rw [← hl] at hv
    unfold Tables.layoutEntry at hv ⊢
    simp only [List.getD_eq_getElem?_getD] at hv ⊢
    cases hx : s.tables.layouts[p.layout]? with
    | none => simp [hx] at hv
    | some e =>
      have hok := ht.layouts_ok e (List.mem_of_getElem? hx)
      simp only [hx, Option.getD_some] at hv ⊢
      rw [if_pos hv] at hok
      simp only [Layout.ok, Bool.and_eq_true, decide_eq_true_eq] at hok
      simp only [Config.emitters]
      omega

theorem pinnedCurve_le (ht : TablesOk s) : ∀ v ∈ s.curve, v ≤ 8191 := by
  unfold State.curve
  cases hp : s.tables.pins with
  | none => simp
  | some p =>
    unfold Tables.curveEntry
    simp only [List.getD_eq_getElem?_getD]
    cases hx : s.tables.curves[p.curve]? with
    | none => simp
    | some e => exact (ht.curves_ok e (List.mem_of_getElem? hx)).2

theorem lineEnv_of_ok (ht : TablesOk s) (hh : HeadOk s) : LineEnv s := by
  have hp : s.profile.pulseMax ≤ 8191 ∧ s.profile.voidPulse ≤ 8191 ∧ s.profile.mRef ≤ 65535 := by
    by_cases hp : s.tables.pins.isSome = true
    · have := pinnedProfile_ok ht hp
      simp only [Profile.ok, Bool.and_eq_true, decide_eq_true_eq] at this
      omega
    · unfold State.profile
      cases hpin : s.tables.pins with
      | none => simp [Profile.zero]
      | some p => simp [hpin] at hp
  exact ⟨pinnedLayout_wc ht, pinnedCurve_le ht, hp.1, hp.2.1, hp.2.2, hh.mAvg_le⟩

/-! ### Line doses -/

theorem sum_le_bound {ws : List Nat} {b : Nat} (h : ∀ w ∈ ws, w ≤ b) : ws.sum ≤ ws.length * b := by
  induction ws with
  | nil => simp
  | cons a l ih =>
    have ha := h a (by simp)
    have := ih fun w hw => h w (by simp [hw])
    simp only [List.sum_cons, List.length_cons, Nat.add_mul, Nat.one_mul]
    omega

/-- A line dose lies within its bound (R99). -/
theorem lineDose_le {ws : List Nat} {level : Nat} (hw : WidthsOk ws) (hl : level ≤ 65535) :
    lineDose ws.sum level ≤ lineDoseBound := by
  obtain ⟨h1, h2⟩ := hw
  have h3 := sum_le_bound h2
  have h4 : ws.sum ≤ 2048 * 8191 := h3.trans (Nat.mul_le_mul_right _ h1)
  have h5 : ws.sum * level ≤ 2048 * 8191 * 65535 := Nat.mul_le_mul h4 hl
  unfold lineDose lineDoseBound Config.doseUnit
  omega

/-! ### Page intake -/

theorem PageFits.congr {c d : Context} (h : PageFits c) (ho : d.hOff = c.hOff) (hw : d.w = c.w) (hd : d.d = c.d) :
    PageFits d := by
  intro ml hm
  rw [hw, hd]
  exact h ml (ho ▸ hm)

theorem PageFits.addFlags {c : Context} {f : IntakeFlags} (h : PageFits c) : PageFits (c.addFlags f) := by
  unfold Context.addFlags
  split
  · exact h
  · exact h.congr rfl rfl rfl

theorem setPage_store {i : Intake} {c : Context} (h : StoreDoses i) (hc : PageFits c) : StoreDoses (i.setPage c) := by
  obtain ⟨h1, h2, h3⟩ := h
  unfold Intake.setPage
  split
  · exact ⟨h1, h2, fun x hx => by cases hx; exact hc⟩
  · refine ⟨h1, fun x hx => ?_, h3⟩
    rcases List.mem_append.mp hx with hx | hx
    · exact h2 x (List.mem_of_mem_dropLast hx)
    · simp only [List.mem_singleton] at hx; subst hx; exact hc

theorem page_fits {i : Intake} {c : Context} (h : StoreDoses i) (hc : i.page = some c) : PageFits c := by
  unfold Intake.page at hc
  split at hc
  · cases hc; exact h.2.2 _ ‹_›
  · exact h.2.1 c (List.mem_of_getLast? hc)

theorem endPage_doses {n : Bool} (h : DosesOk s) : DosesOk (endPage n s) := by
  obtain ⟨h1, h2, h3⟩ := h.store
  unfold endPage
  split
  · exact h.setIntake ⟨h1, h2, by simp⟩
  · rename_i ho
    split
    · exact h.setIntake ⟨h1, h2, h3⟩
    · rename_i c hc
      dsimp only
      have := setPage_store (i := s.intake) (c := { c.addFlags { IntakeFlags.none with short := !c.allArrived, noEnd := n }
        with pendingLine := none, ended := true }) h.store
        ((h2 c (List.mem_of_getLast? hc)).addFlags.congr rfl rfl rfl)
      exact h.setIntake this

theorem endOpenPage_doses (h : DosesOk s) : DosesOk (endOpenPage s) := by
  unfold endOpenPage
  split <;> first
    | exact endPage_doses h
    | exact h
    | exact h.setIntake h.store

theorem purgeExposing_doses (h : DosesOk s) : DosesOk (purgeExposing s) := by
  obtain ⟨h1, h2, h3⟩ := h.store
  unfold purgeExposing
  split
  · exact h
  · rename_i c rest hc
    have h0 : DosesOk (s.setIntake { s.intake with
        store := s.intake.store.filter fun l => l.cell != c.cell
        contexts := { c with voided := true, pendingLine := none } :: rest
        state := purgedState s.intake }) := by
      refine h.setIntake ⟨fun l hl => h1 l (List.mem_of_mem_filter hl), fun x hx => ?_, h3⟩
      rcases List.mem_cons.mp hx with rfl | hx
      · exact (h2 c (by simp [hc])).congr rfl rfl rfl
      · exact h2 x (by simp [hc, hx])
    dsimp only
    split
    · exact h0.same (by simp) (by simp) (by simp) (by simp) (by simp)
    · exact h0

theorem carryFlags_doses (h : DosesOk s) : DosesOk (carryFlags s) := by
  obtain ⟨h1, h2, h3, h4⟩ := h.line
  unfold carryFlags
  split
  · rename_i x _ _ hx _
    split
    · exact h.setEngine ⟨h1, h2, h3, fun y hy => by cases hy; exact h4 x hx⟩
    · exact h
  · exact h

theorem clearIntake_doses (h : DosesOk s) : DosesOk (clearIntake s) := by
  have h1 := carryFlags_doses h
  have h2 : DosesOk (dropBand (carryFlags s)) := h1.same (by simp) (by simp) (by simp) (by simp) (by simp)
  unfold clearIntake
  exact h2.setIntake ⟨by simp, by simp, by simp⟩

theorem dropExposing_doses (h : DosesOk s) : DosesOk (dropExposing s) := by
  obtain ⟨h1, h2, h3⟩ := h.store
  unfold dropExposing
  split
  · rename_i x c rest _ hc
    split
    · exact h
    · refine h.setIntake ⟨h1, fun y hy => h2 y (by simp [hc, hy]), fun y hy => ?_⟩
      dsimp only at hy
      unfold orphanAfter at hy
      split at hy
      · cases hy; exact h2 _ (by simp [hc])
      · exact h3 y hy
  · exact h

/-! ### The exposure engine -/

theorem engineToIdle_doses (h : DosesOk s) : DosesOk (engineToIdle s) :=
  h.setEngine ⟨h.widths_ok, h.m_le, by simp, by simp⟩

theorem releaseOnly_doses (h : DosesOk s) : DosesOk (releaseOnly s) := engineToIdle_doses (dropExposing_doses h)

/-- An engine that takes an exposure side within the bounds, its latched line kept. -/
theorem DosesOk.setExposure {x : Exposure} {e : Engine} (h : DosesOk s) (hw : e.widths = s.engine.widths)
    (hm : e.m = s.engine.m) (hd : e.driven = s.engine.driven ∨ e.driven = none) (he : e.exposure = some x)
    (hx : x.a ≤ lineDoseBound * (x.linesExposed + x.linesFlooded) ∧ x.p ≤ lineDoseBound * x.linesExposed) :
    DosesOk (s.setEngine e) := by
  refine h.setEngine ⟨hw ▸ h.widths_ok, hm ▸ h.m_le, fun b m hb => ?_, fun y hy => ?_⟩
  · rcases hd with hd | hd
    · exact h.driven_ok b m (hd ▸ hb)
    · rw [hd] at hb; cases hb
  · rw [he] at hy; cases hy; exact hx

theorem requestMove_doses {x : Exposure} (h : DosesOk s)
    (hx : x.a ≤ lineDoseBound * (x.linesExposed + x.linesFlooded) ∧ x.p ≤ lineDoseBound * x.linesExposed) :
    DosesOk (requestMove x s) :=
  (h.setExposure (e := { s.engine with state := .moving, exposure := some x }) rfl rfl (.inl rfl) rfl hx).same
    (by simp [requestMove]) (by simp [requestMove]) (by simp [requestMove]) (by simp [requestMove])
    (by simp [requestMove])

theorem admit_doses (h : DosesOk s) : DosesOk (admitContext s) := by
  unfold admitContext
  split
  · split
    · exact h
    · dsimp only
      split
      · exact requestMove_doses h (by simp [exposureOf])
      · exact h.setExposure rfl rfl (.inl rfl) rfl (by simp [exposureOf])
  · exact h

theorem release_doses (h : DosesOk s) : DosesOk (release s) := admit_doses (releaseOnly_doses h)

theorem startImage_doses {x : Exposure} {g : List Nat} (h : DosesOk s) (hv : LineEnv s)
    (hx : s.engine.exposure = some x) (hg : g.length ≤ Config.emitters) : DosesOk (startImage x g s) := by
  have hb : WidthsOk (baseWidths s.curve g) := by
    refine ⟨by simpa [baseWidths] using hg, fun w hw => ?_⟩
    simp only [baseWidths, List.mem_map] at hw
    obtain ⟨y, -, rfl⟩ := hw
    rw [List.getD_eq_getElem?_getD]
    cases hy : s.curve[y]? with
    | none => simp
    | some v => exact hv.curve_le v (List.mem_of_getElem? hy)
  unfold startImage
  refine h.setEngine ⟨⟨by simpa [baseWidths] using hg, fun w hw => ?_⟩, hv.mAvg_le, fun b m hd => ?_, fun y hy => ?_⟩
  · simp only [List.mem_map] at hw
    obtain ⟨y, -, rfl⟩ := hw
    exact (Nat.min_le_right _ _).trans hv.pulse_le
  · cases hd; exact ⟨hb, hv.mRef_le⟩
  · cases hy; exact h.frame_ok x hx

theorem startFlood_doses {x : Exposure} (h : DosesOk s) (hv : LineEnv s) (hx : s.engine.exposure = some x) :
    DosesOk (startFlood x s) := by
  unfold startFlood
  split
  · refine h.setEngine ⟨⟨by simpa using hv.wc_le, fun w hw => ?_⟩, hv.mAvg_le, by simp, fun y hy => ?_⟩
    · rw [(List.mem_replicate.mp hw).2]; exact hv.void_le
    · cases hy; exact h.frame_ok x hx
  · exact h

theorem voidFrame_doses (h : DosesOk s) (hv : LineEnv s) : DosesOk (voidFrame s) := by
  have h1 := purgeExposing_doses h
  have h2 : DosesOk ((purgeExposing s).setEngine { (purgeExposing s).engine with
      state := .flooding, holdTimer := none, driven := none }) :=
    h1.setEngine ⟨h1.widths_ok, h1.m_le, by simp, h1.frame_ok⟩
  unfold voidFrame
  dsimp only
  split
  · exact startFlood_doses h2 (hv.same (by simp) (by simp)) ‹_›
  · exact h2

theorem underrun_doses {x : Exposure} (h : DosesOk s) (hv : LineEnv s) (hx : s.engine.exposure = some x) :
    DosesOk (underrun x s) := by
  unfold underrun
  split
  · exact voidFrame_doses h hv
  · exact h.setExposure rfl rfl (.inl rfl) rfl (h.frame_ok x hx)

/-- A line leaves the front of the store. -/
theorem DosesOk.popLine {l : PlacedLine} {rest : List PlacedLine} (h : DosesOk s) (hl : s.intake.store = l :: rest) :
    DosesOk (s.setIntake { s.intake with store := rest }) :=
  h.setIntake ⟨fun x hx => h.lines_ok x (by simp [hl, hx]), h.pages_ok, h.orphan_ok⟩

theorem dueLineStart_doses (h : DosesOk s) (hv : LineEnv s) : DosesOk (dueLineStart s) := by
  unfold dueLineStart
  split
  · rename_i x hx hd
    split
    · split
      · split
        · rename_i l rest hl
          split
          · exact startImage_doses (h.popLine hl) (hv.same rfl rfl) hx (h.lines_ok l (by simp [hl]))
          · exact underrun_doses h hv hx
        · exact underrun_doses h hv hx
      · exact startFlood_doses h hv hx
      all_goals exact h
    · exact h
  · exact h

theorem endHold_doses (h : DosesOk s) (hv : LineEnv s) : DosesOk (endHold s) := by
  unfold endHold
  split
  · rename_i x l rest hx hl
    split
    · exact startImage_doses (h.popLine hl) (hv.same rfl rfl) hx (h.lines_ok l (by simp [hl]))
    · exact h
  · exact h

theorem storeLine_store {i : Intake} {c : Context} {g : List Nat} (h : StoreDoses i) (hc : PageFits c)
    (hg : g.length ≤ Config.emitters) : StoreDoses (storeLine c g i) := by
  obtain ⟨h1, h2, h3⟩ := setPage_store h (hc.congr (d := { c with placed := c.placed + 1 }) rfl rfl rfl)
  refine ⟨fun l hl => ?_, h2, h3⟩
  rcases List.mem_append.mp hl with hl | hl
  · exact h.1 l hl
  · simp only [List.mem_singleton] at hl; subst hl; exact hg

theorem appendLine_doses {c : Context} {g : List Nat} (h : DosesOk s) (hv : LineEnv s) (hc : PageFits c)
    (hg : g.length ≤ Config.emitters) : DosesOk (appendLine c g s) :=
  endHold_doses (h.setIntake (storeLine_store h.store hc hg)) (hv.same rfl rfl)

/-! ### Cells -/

theorem startCell_doses {cell : Nat} (h : DosesOk s) : DosesOk (startCell cell s) := by
  unfold startCell
  split
  · exact h
  · rename_i f hf
    split
    · refine h.setJob fun g hg c hc => ?_
      cases hg
      dsimp only [moveCell] at hc
      split at hc
      · rename_i e he
        split at hc
        · rcases List.mem_or_eq_of_mem_set hc with hc | rfl
          · exact h.cells_ok f hf c hc
          · exact h.cells_ok f hf e (List.mem_of_getElem? he)
        · exact h.cells_ok f hf c hc
      · exact h.cells_ok f hf c hc
    · exact h

theorem assignCell_doses {cell : Nat} {key : Option (List Byte)} (h : DosesOk s) : DosesOk (assignCell cell key s) := by
  unfold assignCell
  split
  · exact h
  · rename_i f hf
    refine h.setJob fun g hg c hc => ?_
    cases hg
    dsimp only [moveCell] at hc
    split at hc
    · rename_i e he
      split at hc
      · rcases List.mem_or_eq_of_mem_set hc with hc | rfl
        · exact h.cells_ok f hf c hc
        · exact h.cells_ok f hf e (List.mem_of_getElem? he)
      · exact h.cells_ok f hf c hc
    · exact h.cells_ok f hf c hc

/-- A result within the bounds enters the map. -/
theorem recordResult_doses {cell : Nat} {old : CellState} {r : FrameResult} (h : DosesOk s)
    (hr : r.a ≤ lineDoseBound * (r.linesExposed + r.linesFlooded) ∧ r.p ≤ lineDoseBound * r.linesExposed) :
    DosesOk (recordResult cell old r s) := by
  unfold recordResult
  split
  · exact h
  · rename_i f hf
    split
    · refine h.setJob fun g hg c hc => ?_
      cases hg
      dsimp only [moveCell] at hc
      split at hc
      · split at hc
        · rcases List.mem_or_eq_of_mem_set hc with hc | rfl
          · exact h.cells_ok f hf c hc
          · exact hr
        · exact h.cells_ok f hf c hc
      · exact h.cells_ok f hf c hc
    · exact h

theorem frameStart_doses (h : DosesOk s) (hv : LineEnv s) : DosesOk (frameStart s) := by
  unfold frameStart
  split
  · exact h
  · rename_i x hx
    have h1 := startCell_doses (cell := x.cell) h
    refine dueLineStart_doses ?_ (hv.same (by simp) (by simp))
    exact h1.setExposure rfl rfl (.inr rfl) rfl (by simp)

/-! ### Frame end -/

theorem handOver_doses {o : CellState} {x : Exposure} {r : FrameResult} (h : DosesOk s)
    (hx : x.a ≤ lineDoseBound * (x.linesExposed + x.linesFlooded) ∧ x.p ≤ lineDoseBound * x.linesExposed)
    (hr : r.a ≤ lineDoseBound * (r.linesExposed + r.linesFlooded) ∧ r.p ≤ lineDoseBound * r.linesExposed) :
    DosesOk (handOver o x r s) := by
  have h1 := recordResult_doses (cell := x.cell) (old := o) h hr
  unfold handOver
  dsimp only
  generalize hu : composeSlot .engine (.frame (frameReport (recordResult x.cell o r s) x r)) (recordResult x.cell o r s)
    = u
  have h2 : DosesOk u := by
    subst hu
    exact h1.same (by simp) (by simp) (by simp) (by simp) (by simp)
  have h3 : DosesOk (u.setEngine { u.engine with
      state := .frameEnd, exposure := some x, holdTimer := none, driven := none }) :=
    h2.setExposure rfl rfl (.inr rfl) rfl hx
  split
  · exact release_doses h3
  · exact h3

theorem frameEndStopped_doses {x : Exposure} (h : DosesOk s)
    (hx : x.a ≤ lineDoseBound * (x.linesExposed + x.linesFlooded) ∧ x.p ≤ lineDoseBound * x.linesExposed) :
    DosesOk (frameEndStopped x s) := by
  unfold frameEndStopped frameEndVoid
  split
  · exact releaseOnly_doses h
  · exact handOver_doses h hx hx

theorem imageLineEnd_doses {x : Exposure} {b : List Nat} {m : Nat} (h : DosesOk s) (hv : LineEnv s)
    (hx : s.engine.exposure = some x) (hd : s.engine.driven = some (.image b m)) : DosesOk (imageLineEnd x b m s) := by
  have ha := lineDose_le h.widths_ok h.m_le
  have hp := lineDose_le (h.driven_ok b m hd).1 (h.driven_ok b m hd).2
  have hf := h.frame_ok x hx
  have hy : (accountImage s.engine b m x).a
        ≤ lineDoseBound * ((accountImage s.engine b m x).linesExposed + (accountImage s.engine b m x).linesFlooded)
      ∧ (accountImage s.engine b m x).p ≤ lineDoseBound * (accountImage s.engine b m x).linesExposed := by
    simp only [accountImage, lineDoseBound] at *
    omega
  have h1 : DosesOk (s.setEngine { s.engine with exposure := some (accountImage s.engine b m x), driven := none }) :=
    h.setExposure rfl rfl (.inr rfl) rfl hy
  unfold imageLineEnd frameEndExposed
  dsimp only
  (repeat' split) <;> first
    | exact frameEndStopped_doses h1 hy
    | exact handOver_doses h1 hy hy
    | exact dueLineStart_doses h1 (hv.same rfl rfl)

theorem floodLineEnd_doses {x : Exposure} (h : DosesOk s) (hv : LineEnv s) (hx : s.engine.exposure = some x) :
    DosesOk (floodLineEnd x s) := by
  have ha := lineDose_le h.widths_ok h.m_le
  have hf := h.frame_ok x hx
  have hy : (accountFlood s.engine x).a
        ≤ lineDoseBound * ((accountFlood s.engine x).linesExposed + (accountFlood s.engine x).linesFlooded)
      ∧ (accountFlood s.engine x).p ≤ lineDoseBound * (accountFlood s.engine x).linesExposed := by
    simp only [accountFlood, lineDoseBound] at *
    omega
  have h1 : DosesOk (s.setEngine { s.engine with exposure := some (accountFlood s.engine x), driven := none }) :=
    h.setExposure rfl rfl (.inr rfl) rfl hy
  unfold floodLineEnd frameEndVoid
  dsimp only
  (repeat' split) <;> first
    | exact frameEndStopped_doses h1 hy
    | exact handOver_doses h1 hy hy
    | exact dueLineStart_doses h1 (hv.same rfl rfl)

theorem stopEngine_doses (h : DosesOk s) : DosesOk (stopEngine s) := by
  have hs : DosesOk (s.setEngine { s.engine with stopping := true }) := h.setEngine h.line
  have ht : DosesOk (s.setEngine { s.engine with holdTimer := none }) := h.setEngine h.line
  unfold stopEngine
  (repeat' split) <;> first
    | exact h
    | exact engineToIdle_doses h
    | exact hs
    | exact frameEndStopped_doses h (h.frame_ok _ ‹_›)
    | exact frameEndStopped_doses ht (h.frame_ok _ ‹_›)

theorem engineFault_doses (h : DosesOk s) : DosesOk (engineFault s) := by
  unfold engineFault
  split
  · exact engineToIdle_doses h
  · exact handOver_doses h (h.frame_ok _ ‹_›) (by simp)
  · exact engineToIdle_doses h
  · exact h

/-! ### The head monitor -/

theorem signalExcursion_doses (h : DosesOk s) : DosesOk (signalExcursion s) := by
  unfold signalExcursion
  split
  · rename_i x hx
    split
    · exact h.setExposure rfl rfl (.inl rfl) rfl (h.frame_ok x hx)
    · exact h
  · exact h

theorem compareValue_doses {v : Nat} (h : DosesOk s) : DosesOk (compareValue v s) := by
  unfold compareValue
  dsimp only
  split
  · exact (signalExcursion_doses h).same (by simp) (by simp) (by simp) (by simp) (by simp)
  · exact h.same (by simp) (by simp) (by simp) (by simp) (by simp)

theorem completeAverage_doses {n : Nat} (h : DosesOk s) : DosesOk (completeAverage n s) := by
  have h1 : DosesOk (s.setHead { s.head with
      mAvg := averageOf s.head.sum n, mValid := true, sum := 0, count := 0, len := none }) := h.same rfl rfl rfl rfl rfl
  have h2 := compareValue_doses (v := averageOf s.head.sum n) h1
  unfold completeAverage
  dsimp only [State.setHead_head]
  split
  all_goals
    split
    · exact h2.same (by simp) (by simp) (by simp) (by simp) (by simp)
    · exact h1.same (by simp) (by simp) (by simp) (by simp) (by simp)

theorem takeConversion_doses {raw : Nat} (h : DosesOk s) : DosesOk (takeConversion raw s) := by
  have h1 : ∀ x, DosesOk (s.setHead x) := fun x => h.same rfl rfl rfl rfl rfl
  have h2 : ∀ x, DosesOk (compareValue raw (s.setHead x)) := fun x => compareValue_doses (h1 x)
  unfold takeConversion
  dsimp only
  (repeat' split) <;> first
    | exact h1 _
    | exact h2 _
    | exact completeAverage_doses (h1 _)
    | exact completeAverage_doses (h2 _)

/-! ### The job controller -/

theorem setOutcome_doses {o : FicheOutcome} (h : DosesOk s) : DosesOk (setOutcome o s) := by
  unfold setOutcome
  split
  · exact h
  · rename_i f hf
    exact h.setFiche hf rfl

theorem setStack_doses {st : Stack} (h : DosesOk s) : DosesOk (setStack st s) := by
  unfold setStack
  split
  · exact h
  · rename_i f hf
    exact h.setFiche hf rfl

theorem setJobState_doses {j : JobState} (h : DosesOk s) : DosesOk (setJobState j s) := h.setJob h.cells

theorem requestEject_doses {st : EjectStack} (h : DosesOk s) : DosesOk (requestEject st s) := by
  have h1 : ∀ m u, DosesOk u → DosesOk (requestMotion m u) := fun m u hu =>
    hu.same (by simp) (by simp) (by simp) (by simp) (by simp)
  exact h1 _ _ (setStack_doses h)

theorem closeFiche_doses {f g : Fiche} (h : DosesOk s) (hf : s.job.fiche = some f) (hm : g.map = f.map) :
    DosesOk (closeFiche g s) := by
  unfold closeFiche
  have h1 : DosesOk (composeSlot .job (.fclosed (fclosedOf g)) s) :=
    h.same (by simp) (by simp) (by simp) (by simp) (by simp)
  exact h1.setFiche (f := f) (by simpa using hf) hm

theorem enterIdle_doses (h : DosesOk s) : DosesOk (enterIdle s) := by
  have h1 : DosesOk (releasePins s) := h.same (by simp) (by simp) (by simp) (by simp) (by simp)
  exact (setJobState_doses (j := .idle) h1).same (by simp [enterIdle]) (by simp [enterIdle]) (by simp [enterIdle])
    (by simp [enterIdle]) (by simp [enterIdle])

theorem endingActions_doses (h : DosesOk s) : DosesOk (endingActions s) := by
  have h1 := setJobState_doses (j := .ending) (clearIntake_doses h)
  unfold endingActions
  exact stopEngine_doses (h1.setJob h1.cells)

theorem disposeCard_doses (h : DosesOk s) : DosesOk (disposeCard s) := by
  unfold disposeCard
  split <;> first
    | exact h
    | exact requestEject_doses h

theorem fullResetAtStop_doses (h : DosesOk s) : DosesOk (fullResetAtStop s) := by
  have h1 : DosesOk (parkHead (s.setTables { Tables.reset with pins := s.tables.pins })) :=
    h.same (by simp) (by simp) (by simp) (by simp) (by simp)
  unfold fullResetAtStop
  dsimp only
  generalize parkHead (s.setTables { Tables.reset with pins := s.tables.pins }) = u at h1
  have h2 : DosesOk (u.setEngine { u.engine with m := 0, c := Config.unity, sat := false, widths := [] }) :=
    h1.setEngine ⟨⟨by simp, by simp⟩, by simp, h1.driven_ok, h1.frame_ok⟩
  exact h2.same (by simp) (by simp) (by simp) (by simp) (by simp)

theorem takeStopSignal_doses (h : DosesOk s) : DosesOk (takeStopSignal s) := by
  have h1 : DosesOk (s.setJob { s.job with onStop := none }) := h.setJob h.cells
  unfold takeStopSignal
  (repeat' split) <;> first
    | exact h
    | exact disposeCard_doses h1
    | exact fullResetAtStop_doses h1

theorem meetOpening_doses (h : DosesOk s) : DosesOk (meetOpening s) := by
  unfold meetOpening
  split
  · exact h
  · rename_i f hf
    split
    · have h1 : DosesOk (s.setFiche { f with openingMet := true }) := h.setFiche hf rfl
      dsimp only
      generalize s.setFiche { f with openingMet := true } = u at h1
      have h2 : DosesOk (u.setJob { u.job with fopenedDue := true }) := h1.setJob h1.cells
      unfold noticeOpening
      split
      · exact requestMove_doses h2 (h2.frame_ok _ ‹_›)
      · exact h2
    · exact h

theorem composeFopened_doses (h : DosesOk s) : DosesOk (composeFopened s) := by
  unfold composeFopened
  split
  · exact h
  · split
    · rename_i f hf _
      have h1 : DosesOk (composeSlot .job (.fopened (fopenedOf f s.layout)) s) :=
        h.same (by simp) (by simp) (by simp) (by simp) (by simp)
      exact h1.setJob h1.cells
    · exact h

theorem closingStep_doses (h : DosesOk s) : DosesOk (closingStep s) := by
  unfold closingStep
  split
  · exact h
  · rename_i f hf
    split
    · exact requestEject_doses (h.setFiche hf rfl)
    · exact h

theorem completeNoStock_doses {f : Fiche} (h : DosesOk s) (hf : s.job.fiche = some f) :
    DosesOk (completeNoStock f s) := by
  unfold completeNoStock
  split
  · exact enterIdle_doses (closeFiche_doses (engineToIdle_doses (clearIntake_doses h)) (by simpa using hf) rfl)
  · exact h

theorem completeEnding_doses (h : DosesOk s) : DosesOk (completeEnding s) := by
  unfold completeEnding
  split
  · split
    · exact enterIdle_doses h
    · rename_i f hf
      split
      · exact enterIdle_doses (h.setFiche hf rfl)
      · split
        · exact enterIdle_doses (closeFiche_doses h hf rfl)
        · exact h
  · exact h

theorem completeJob_doses (h : DosesOk s) : DosesOk (completeJob s) := by
  have hc : ∀ f, s.job.fiche = some f → DosesOk (closeFiche f s) := fun f hf => closeFiche_doses h hf rfl
  unfold completeJob
  (repeat' split) <;> first
    | exact h
    | exact enterIdle_doses (hc _ ‹_›)
    | exact completeNoStock_doses h ‹_›
    | exact completeEnding_doses h
    | exact hc _ ‹_›

theorem jobProceeds_doses (h : DosesOk s) : DosesOk (jobProceeds s) :=
  completeJob_doses (closingStep_doses (composeFopened_doses h))

theorem jobTests_doses (h : DosesOk s) (ht : TablesOk s) (hh : HeadOk s) : DosesOk (jobTests s) := by
  have h1 := completeJob_doses (closingStep_doses (composeFopened_doses (meetOpening_doses (takeStopSignal_doses h))))
  have ht1 : TablesOk (closingStep (composeFopened (meetOpening (takeStopSignal s)))) :=
    (takeStopSignal_tablesOk ht).same (by simp) (by simp)
  have hh1 : HeadOk (closingStep (composeFopened (meetOpening (takeStopSignal s)))) :=
    (takeStopSignal_headOk hh).same (by simp) (by simp)
  exact dueLineStart_doses h1 (lineEnv_of_ok (completeJob_tablesOk ht1) (completeJob_headOk hh1))

theorem takeNoStock_doses (h : DosesOk s) : DosesOk (takeNoStock s) := by
  have h1 : DosesOk (clearIntake (setStack .noStack (setOutcome .noStock s))) :=
    clearIntake_doses (setStack_doses (setOutcome_doses h))
  unfold takeNoStock
  dsimp only
  (repeat' split) <;> first
    | exact h
    | exact h1
    | exact engineToIdle_doses h1

theorem takeHeadNotReady_doses (h : DosesOk s) : DosesOk (takeHeadNotReady s) := by
  unfold takeHeadNotReady
  split
  · exact endingActions_doses (setOutcome_doses h)
  · exact h

theorem recordFault_doses {c : TransportCode} (h : DosesOk s) : DosesOk (recordFault c s) := by
  unfold recordFault
  split
  · exact h
  · rename_i f hf
    refine h.setFiche hf ?_
    unfold Fiche.withFault Fiche.withOutcome
    split <;> rfl

theorem takeTransportFault_doses {c : TransportCode} (h : DosesOk s) : DosesOk (takeTransportFault c s) := by
  unfold takeTransportFault
  split
  · exact h
  · have h1 := recordFault_doses (c := c) h
    exact engineFault_doses (clearIntake_doses (h1.setJob h1.cells))

theorem takePending_doses (h : DosesOk s) : DosesOk (takePending s) :=
  h.same (by simp) (by simp) (by simp) (by simp) (by simp)

theorem transportFault_doses {c : TransportCode} {f : InFlight} (h : DosesOk s) : DosesOk (transportFault c f s) := by
  unfold transportFault
  exact takePending_doses (takeTransportFault_doses (h.same (by simp) (by simp) (by simp) (by simp) (by simp)))

theorem loadNoStock_doses (h : DosesOk s) : DosesOk (loadNoStock s) :=
  takePending_doses (takeNoStock_doses (h.same rfl rfl rfl rfl rfl))

theorem motionDone_doses {f : InFlight} (h : DosesOk s) (hv : LineEnv s) : DosesOk (motionDone f s) := by
  have h2 : ∀ m u, DosesOk u → LineEnv u → DosesOk (tellDone m u) := by
    intro m u hu hvu
    unfold tellDone
    (repeat' split) <;> first
      | exact hu
      | exact frameStart_doses hu hvu
      | exact requestEject_doses hu
      | exact enterIdle_doses hu
  exact takePending_doses (h2 _ _ (h.same rfl rfl rfl rfl rfl) (hv.same rfl rfl))

end Sys2Proof.Machine
end

