-- ==== Sys2Proof/Laws/EngineKept.lean ====
section
/-!
SUPPORT. Every shared operation keeps `EngineOk`.
-/

namespace Sys2Proof.Machine

variable {s t : State}

/-- An operation that leaves the exposure engine alone keeps `EngineOk`. -/
theorem EngineOk.same (h : EngineOk s) (he : t.engine = s.engine) : EngineOk t := by
  obtain ⟨h1, h2, h3, h4⟩ := h
  rw [← he] at h1 h2 h3 h4
  exact ⟨h1, h2, h3, h4⟩

/-- An engine whose exposure side is updated within the hold count's range, in the same engine state. -/
theorem EngineOk.setExposure {x : Exposure} {e : Engine} (h : EngineOk s) (hx : s.engine.exposure.isSome = true)
    (hs : e.state = s.engine.state) (ht : e.holdTimer = s.engine.holdTimer) (hd : e.driven.isSome = true →
      e.state = .exposing ∨ e.state = .flooding) (he : e.exposure = some x) (hc : x.holdCount ≤ 255) :
    EngineOk (s.setEngine e) := by
  obtain ⟨h1, h2, h3, h4⟩ := h
  constructor <;> simp only [State.setEngine_engine]
  · simp [he, hs, ← h1, hx]
  · rw [ht, hs, h2]
  · exact hd
  · intro y hy; rw [he] at hy; cases hy; exact hc

theorem signalExcursion_engineOk (h : EngineOk s) : EngineOk (signalExcursion s) := by
  unfold signalExcursion
  split
  · rename_i x hx
    split
    · exact h.setExposure (by simp [hx]) rfl rfl h.driven_state rfl (h.hold_count x hx)
    · exact h
  · exact h

theorem compareValue_engineOk {v : Nat} (h : EngineOk s) : EngineOk (compareValue v s) := by
  unfold compareValue
  dsimp only
  split
  · exact (signalExcursion_engineOk h).same (by simp)
  · exact h.same (by simp)

theorem completeAverage_engineOk {n : Nat} (h : EngineOk s) : EngineOk (completeAverage n s) := by
  have h1 : EngineOk (s.setHead { s.head with
      mAvg := averageOf s.head.sum n, mValid := true, sum := 0, count := 0, len := none }) := h.same rfl
  have h2 := compareValue_engineOk (v := averageOf s.head.sum n) h1
  unfold completeAverage
  dsimp only [State.setHead_head]
  split
  · split
    · exact h2.same (by simp)
    · exact h1.same (by simp)
  · split
    · exact h2.same (by simp)
    · exact h1.same (by simp)

theorem takeConversion_engineOk {raw : Nat} (h : EngineOk s) : EngineOk (takeConversion raw s) := by
  have h1 : ∀ x, EngineOk (s.setHead x) := fun x => h.same rfl
  have h2 : ∀ x, EngineOk (compareValue raw (s.setHead x)) := fun x => compareValue_engineOk (h1 x)
  unfold takeConversion
  dsimp only
  (repeat' split) <;> first
    | exact h1 _
    | exact h2 _
    | exact completeAverage_engineOk (h1 _)
    | exact completeAverage_engineOk (h2 _)

theorem carryFlags_engineOk (h : EngineOk s) : EngineOk (carryFlags s) := by
  unfold carryFlags
  split
  · rename_i x _ _ hx _
    split
    · exact h.setExposure (by simp [hx]) rfl rfl h.driven_state rfl (h.hold_count x hx)
    · exact h
  · exact h

theorem clearIntake_engineOk (h : EngineOk s) : EngineOk (clearIntake s) :=
  (carryFlags_engineOk h).same (by simp [clearIntake])

/-- An IDLE engine is in order. -/
theorem engineToIdle_engineOk : EngineOk (engineToIdle s) := by
  constructor <;> simp [engineToIdle]

theorem releaseOnly_engineOk : EngineOk (releaseOnly s) := engineToIdle_engineOk

theorem requestMove_engineOk {x : Exposure} (hx : x.holdCount ≤ 255) (hd : s.engine.driven = none)
    (ht : s.engine.holdTimer = none) : EngineOk (requestMove x s) := by
  refine EngineOk.same (s := s.setEngine { s.engine with state := .moving, exposure := some x }) ?_
    (by simp [requestMove])
  constructor <;> simp [hd, ht, hx]

theorem admit_engineOk (h : EngineOk s) : EngineOk (admitContext s) := by
  unfold admitContext
  split
  · rename_i hi
    have ht : s.engine.holdTimer = none := by
      have := h.hold_timer
      rw [hi] at this
      simpa using this
    have hd : s.engine.driven = none := by
      have := h.driven_state
      rw [hi] at this
      cases hdr : s.engine.driven <;> simp_all
    split
    · exact h
    · dsimp only
      split
      · exact requestMove_engineOk (by simp [exposureOf]) hd ht
      · constructor <;> simp [hd, ht, exposureOf]
  · exact h

theorem release_engineOk : EngineOk (release s) := admit_engineOk releaseOnly_engineOk

/-- A line start leaves an engine in EXPOSING or FLOODING, with no hold. -/
theorem startImage_engineOk {x : Exposure} {g : List Nat} (hx : x.holdCount ≤ 255) : EngineOk (startImage x g s) := by
  constructor <;> simp [startImage, hx]

theorem startFlood_engineOk {x : Exposure} (h : EngineOk s) (hf : s.engine.state = .flooding)
    (hx : s.engine.exposure = some x) : EngineOk (startFlood x s) := by
  unfold startFlood
  split
  · exact h.setExposure (by simp [hx]) rfl rfl (fun _ => .inr hf) rfl (h.hold_count x hx)
  · exact h

theorem voidFrame_engineOk (h : EngineOk s) (hx : s.engine.exposure.isSome = true) : EngineOk (voidFrame s) := by
  have h1 : EngineOk ((purgeExposing s).setEngine { (purgeExposing s).engine with
      state := .flooding, holdTimer := none, driven := none }) := by
    obtain ⟨h1, h2, h3, h4⟩ := h
    constructor <;> simp [hx]
    exact h4
  unfold voidFrame
  dsimp only
  split
  · exact startFlood_engineOk h1 rfl ‹_›
  · exact h1

theorem underrun_engineOk {x : Exposure} (h : EngineOk s) (hx : s.engine.exposure = some x)
    (hd : s.engine.driven = none) : EngineOk (underrun x s) := by
  unfold underrun
  split
  · exact voidFrame_engineOk h (by simp [hx])
  · constructor <;> simp [hd]

theorem dueLineStart_engineOk (h : EngineOk s) : EngineOk (dueLineStart s) := by
  unfold dueLineStart
  split
  · rename_i x hx hd
    split
    · split
      · split
        · split
          · exact startImage_engineOk (h.hold_count x hx)
          · exact underrun_engineOk h hx hd
        · exact underrun_engineOk h hx hd
      · exact startFlood_engineOk h ‹_› hx
      all_goals exact h
    · exact h
  · exact h

theorem endHold_engineOk (h : EngineOk s) : EngineOk (endHold s) := by
  unfold endHold
  (repeat' split) <;> first
    | exact h
    | exact startImage_engineOk (h.hold_count _ ‹_›)

theorem appendLine_engineOk {c : Context} {g : List Nat} (h : EngineOk s) : EngineOk (appendLine c g s) :=
  endHold_engineOk (h.same rfl)

theorem frameStart_engineOk (h : EngineOk s) : EngineOk (frameStart s) := by
  unfold frameStart
  split
  · exact h
  · refine dueLineStart_engineOk ?_
    constructor <;> simp

theorem handOver_engineOk {o : CellState} {x : Exposure} {r : FrameResult} (hx : x.holdCount ≤ 255) :
    EngineOk (handOver o x r s) := by
  unfold handOver
  dsimp only
  split
  · exact release_engineOk
  · constructor <;> simp [hx]

theorem frameEndStopped_engineOk {x : Exposure} (hx : x.holdCount ≤ 255) : EngineOk (frameEndStopped x s) := by
  unfold frameEndStopped frameEndVoid
  split
  · exact releaseOnly_engineOk
  · exact handOver_engineOk hx

/-- A driven line's accounting. -/
theorem EngineOk.account {x y : Exposure} (h : EngineOk s) (hx : s.engine.exposure = some x)
    (hy : y.holdCount = x.holdCount) :
    EngineOk (s.setEngine { s.engine with exposure := some y, driven := none }) :=
  h.setExposure (by simp [hx]) rfl rfl (by simp) rfl (by rw [hy]; exact h.hold_count x hx)

theorem imageLineEnd_engineOk {x : Exposure} {b : List Nat} {m : Nat} (h : EngineOk s)
    (hx : s.engine.exposure = some x) : EngineOk (imageLineEnd x b m s) := by
  have h1 := h.account (y := accountImage s.engine b m x) hx rfl
  unfold imageLineEnd frameEndExposed
  dsimp only
  (repeat' split) <;> first
    | exact frameEndStopped_engineOk (h.hold_count x hx)
    | exact handOver_engineOk (h.hold_count x hx)
    | exact dueLineStart_engineOk h1

theorem floodLineEnd_engineOk {x : Exposure} (h : EngineOk s) (hx : s.engine.exposure = some x) :
    EngineOk (floodLineEnd x s) := by
  have h1 := h.account (y := accountFlood s.engine x) hx rfl
  unfold floodLineEnd frameEndVoid
  dsimp only
  (repeat' split) <;> first
    | exact frameEndStopped_engineOk (h.hold_count x hx)
    | exact handOver_engineOk (h.hold_count x hx)
    | exact dueLineStart_engineOk h1

theorem EngineOk.setStopping {b : Bool} (h : EngineOk s) : EngineOk (s.setEngine { s.engine with stopping := b }) := by
  obtain ⟨h1, h2, h3, h4⟩ := h
  exact ⟨h1, h2, h3, h4⟩

theorem stopEngine_engineOk (h : EngineOk s) : EngineOk (stopEngine s) := by
  unfold stopEngine
  (repeat' split) <;> first
    | exact h
    | exact engineToIdle_engineOk
    | exact h.setStopping
    | exact frameEndStopped_engineOk (h.hold_count _ ‹_›)

theorem engineFault_engineOk (h : EngineOk s) : EngineOk (engineFault s) := by
  unfold engineFault
  split
  · exact engineToIdle_engineOk
  · exact handOver_engineOk (h.hold_count _ ‹_›)
  · exact engineToIdle_engineOk
  · exact h

theorem endingActions_engineOk (h : EngineOk s) : EngineOk (endingActions s) :=
  stopEngine_engineOk ((clearIntake_engineOk h).same rfl)

theorem takeStopSignal_engineOk (h : EngineOk s) : EngineOk (takeStopSignal s) := by
  obtain ⟨h1, h2, h3, h4⟩ := h
  constructor <;> simpa

theorem meetOpening_engineOk (h : EngineOk s) : EngineOk (meetOpening s) := by
  unfold meetOpening
  dsimp only
  (repeat' split) <;> first
    | exact h
    | skip
  unfold noticeOpening
  split
  · rename_i x hs hx
    simp only [State.setJob_engine, State.setFiche_engine] at hs hx
    have ht : s.engine.holdTimer = none := by
      have := h.hold_timer
      rw [hs] at this
      simpa using this
    have hd : s.engine.driven = none := by
      have := h.driven_state
      rw [hs] at this
      cases hdr : s.engine.driven <;> simp_all
    exact requestMove_engineOk (h.hold_count x hx) hd ht
  · exact h.same rfl

theorem completeNoStock_engineOk {f : Fiche} (h : EngineOk s) : EngineOk (completeNoStock f s) := by
  unfold completeNoStock
  split
  · exact (engineToIdle_engineOk (s := clearIntake s)).same (by simp)
  · exact h

theorem completeJob_engineOk (h : EngineOk s) : EngineOk (completeJob s) := by
  unfold completeJob
  (repeat' split) <;> first
    | exact h
    | exact completeNoStock_engineOk h
    | exact h.same (by simp)

theorem jobProceeds_engineOk (h : EngineOk s) : EngineOk (jobProceeds s) :=
  completeJob_engineOk (h.same (by simp))

theorem jobTests_engineOk (h : EngineOk s) : EngineOk (jobTests s) :=
  dueLineStart_engineOk (completeJob_engineOk ((meetOpening_engineOk (takeStopSignal_engineOk h)).same (by simp)))

theorem takeNoStock_engineOk (h : EngineOk s) : EngineOk (takeNoStock s) := by
  have h1 : EngineOk (clearIntake (setStack .noStack (setOutcome .noStock s))) :=
    clearIntake_engineOk (h.same (by simp))
  unfold takeNoStock
  dsimp only
  (repeat' split) <;> first
    | exact h
    | exact h1
    | exact engineToIdle_engineOk

theorem takeHeadNotReady_engineOk (h : EngineOk s) : EngineOk (takeHeadNotReady s) := by
  unfold takeHeadNotReady
  split
  · exact endingActions_engineOk (h.same (by simp))
  · exact h

theorem takeTransportFault_engineOk {c : TransportCode} (h : EngineOk s) : EngineOk (takeTransportFault c s) := by
  unfold takeTransportFault
  split
  · exact h
  · exact engineFault_engineOk (clearIntake_engineOk (h.same (by simp)))

theorem transportFault_engineOk {c : TransportCode} {f : InFlight} (h : EngineOk s) :
    EngineOk (transportFault c f s) := by
  have h1 : ∀ u, EngineOk u → EngineOk (takePending u) := fun u hu => hu.same (by simp)
  unfold transportFault
  exact h1 _ (takeTransportFault_engineOk (h.same (by simp)))

theorem loadNoStock_engineOk (h : EngineOk s) : EngineOk (loadNoStock s) := by
  have h1 : ∀ u, EngineOk u → EngineOk (takePending u) := fun u hu => hu.same (by simp)
  exact h1 _ (takeNoStock_engineOk (h.same rfl))

theorem motionDone_engineOk {f : InFlight} (h : EngineOk s) : EngineOk (motionDone f s) := by
  have h1 : ∀ u, EngineOk u → EngineOk (takePending u) := fun u hu => hu.same (by simp)
  have h2 : ∀ m u, EngineOk u → EngineOk (tellDone m u) := by
    intro m u hu
    unfold tellDone
    (repeat' split) <;> first
      | exact hu
      | exact frameStart_engineOk hu
      | exact hu.same (by simp)
  exact h1 _ (h2 _ _ (h.same rfl))

end Sys2Proof.Machine
end

