-- ==== Sys2Proof/Laws/EventEnds.lean ====
section
/-!
SUPPORT. What the shared ends of an event come to in the common cases: the job controller's tests with nothing due, a
report's composition as a change of the link alone, and the head record.
-/

namespace Sys2Proof.Machine

variable {s : State}

/-- With no stop awaited the stop signal changes nothing. -/
theorem takeStopSignal_none (h : s.job.onStop = none) : takeStopSignal s = s := by simp [takeStopSignal, h]

/-- With no FOPENED due none is composed. -/
theorem composeFopened_not_due (h : s.job.fopenedDue = false) : composeFopened s = s := by
  unfold composeFopened
  split <;> simp [h]

/-- An IDLE job with nothing due finds nothing to do. -/
theorem jobTests_idle (h : s.job.state = .idle) (h1 : s.job.fopenedDue = false) (h2 : s.job.onStop = none) :
    jobTests s = s := by
  have e1 : meetOpening s = s := by simp [meetOpening, opens, h]; split <;> rfl
  have e2 : closingStep s = s := by simp [closingStep, h]; split <;> rfl
  have e3 : completeJob s = s := by simp [completeJob, h]
  have e4 : dueLineStart s = s := by simp [dueLineStart, mayDrive, h]; split <;> rfl
  simp [jobTests, takeStopSignal_none h2, e1, composeFopened_not_due h1, e2, e3, e4]

/-- An OPEN job with nothing due leaves only a line start that may be due. -/
theorem jobTests_opened (h : s.job.state = .opened) (h1 : s.job.fopenedDue = false) (h2 : s.job.onStop = none) :
    jobTests s = dueLineStart s := by
  have e1 : meetOpening s = s := by simp [meetOpening, opens, h]; split <;> rfl
  have e2 : closingStep s = s := by simp [closingStep, h]; split <;> rfl
  have e3 : completeJob s = s := by simp [completeJob, h]
  simp [jobTests, takeStopSignal_none h2, e1, composeFopened_not_due h1, e2, e3]

/-- No line start is due of an engine without an exposure side. -/
theorem dueLineStart_no_exposure (h : s.engine.exposure = none) : dueLineStart s = s := by simp [dueLineStart, h]

/-- No line start is due while a line is driven. -/
theorem dueLineStart_driven (h : s.engine.driven.isSome = true) : dueLineStart s = s := by
  unfold dueLineStart
  split <;> simp_all

/-- A composition changes the link alone, by the link alone. -/
theorem composeSlot_eq_of_link {t : State} (p : Producer) (r : Report) (h : t.link = s.link) :
    composeSlot p r t = { t with link := (composeSlot p r s).link } := by
  unfold composeSlot State.linkUp slotFree queueRoom placeReport
  simp only [h]
  split <;> [split; skip] <;> first | rfl | rw [← h]

/-- A discard-class report changes the link alone, by the link alone. -/
theorem composeDiscard_eq_of_link {t : State} (r : Report) (h : t.link = s.link) :
    composeDiscard r t = { t with link := (composeDiscard r s).link } := by
  unfold composeDiscard State.linkUp queueRoom placeReport
  simp only [h]
  split <;> [split; skip] <;> first | rfl | rw [← h]

/-- What a head record is. -/
theorem headRecord_eq_some {k : RecordKind} {r : Record} (h : headRecord k s = some r) :
    r.kind = k ∧ s.link.inbound.head? = some r := by
  unfold headRecord at h
  split at h
  · cases h
  · rename_i r' rest heq
    split at h
    · cases h
      simp_all
    · cases h

/-- The pinned profile, layout and curve read the tables alone. -/
theorem profile_eq_of_tables {t : State} (h : t.tables = s.tables) :
    t.profile = s.profile ∧ t.layout = s.layout ∧ t.curve = s.curve := by
  simp [State.profile, State.layout, State.curve, h]

end Sys2Proof.Machine
end

