-- ==== Sys2Proof/Laws/IntakeKept.lean ====
section
/-!
SUPPORT. Every shared operation keeps `IntakeOk`.
-/

namespace Sys2Proof.Machine

variable {s t : State}

/-- `IntakeOk` reads page intake's state, contexts, orphan page and the length of its store. -/
theorem IntakeOk.congr (h : IntakeOk s) (hs : t.intake.state = s.intake.state)
    (hc : t.intake.contexts = s.intake.contexts) (ho : t.intake.orphan = s.intake.orphan)
    (hl : t.intake.store.length ≤ s.intake.store.length) : IntakeOk t := by
  obtain ⟨h1, h2, h3, h4, h5, h6⟩ := h
  rw [← hc] at h1 h3 h5 h6
  rw [← ho] at h4 h6
  rw [← hs] at h5 h6
  exact ⟨h1, hl.trans h2, h3, h4, h5, h6⟩

/-- An operation that leaves page intake alone keeps `IntakeOk`. -/
theorem IntakeOk.same (h : IntakeOk s) (hi : t.intake = s.intake) : IntakeOk t :=
  h.congr (by rw [hi]) (by rw [hi]) (by rw [hi]) (by rw [hi])

theorem removeHead_intakeOk (h : IntakeOk s) : IntakeOk (removeHead s) := h.congr (by simp) (by simp) (by simp) (by simp)

theorem refuse_intakeOk {p : Producer} {r : Record} {c : RefusalCode} (h : IntakeOk s) : IntakeOk (refuse p r c s) :=
  h.congr (by simp) (by simp) (by simp) (by simp)

theorem dropBand_intakeOk (h : IntakeOk s) : IntakeOk (dropBand s) := h.congr (by simp) (by simp) (by simp) (by simp)

/-- A cleared page intake is in order. -/
theorem clearIntake_intakeOk : IntakeOk (clearIntake s) := by
  unfold clearIntake
  constructor <;> simp

theorem PageOk.addFlags {c : Context} {f : IntakeFlags} (h : PageOk c) : PageOk (c.addFlags f) := by
  unfold Context.addFlags
  split
  · exact h
  · exact ⟨h.e_le, h.pending_d⟩

/-- The current page replaced by another that is in order, open where the old one was. -/
theorem setPage_intakeOk {c : Context} {st : IntakeState} {l : List PlacedLine} {b : Option Band} {ph : Bool}
    (h : IntakeOk s) (hp : PageOk c) (hl : l.length ≤ Config.storeSize)
    (ho : s.intake.orphan.isSome = true → st = .taking ∨ st = .fillTop)
    (hst : c.ended = false → c.voided = false → st = .taking ∨ st = .fillTop) :
    IntakeOk (s.setIntake { s.intake.setPage c with state := st, store := l, band := b, pheadChecked := ph }) := by
  obtain ⟨h1, h2, h3, h4, h5, h6⟩ := h
  unfold Intake.setPage
  split
  · rename_i p hop
    have h6 := h6 (by simp [hop])
    constructor <;> simp only [State.setIntake_intake]
    · exact h1
    · exact hl
    · exact h3
    · intro x hx; cases hx; exact hp
    · intro x hx; rw [h6.1] at hx; cases hx
    · exact fun _ => ⟨h6.1, ho (by simp [hop])⟩
  · rename_i hop
    constructor <;> simp only [State.setIntake_intake]
    · simp only [List.length_append, List.length_dropLast, List.length_singleton, Config.contextLimit] at h1 ⊢
      omega
    · exact hl
    · intro x hx
      rcases List.mem_append.mp hx with hx | hx
      · exact h3 x (List.mem_of_mem_dropLast hx)
      · simp only [List.mem_singleton] at hx; subst hx; exact hp
    · exact h4
    · intro x hx
      simp only [List.getLast?_concat, Option.some.injEq] at hx
      subst hx
      exact hst
    · simp [hop]

theorem IntakeOk.page_ok {c : Context} (h : IntakeOk s) (hc : s.intake.page = some c) : PageOk c := by
  unfold Intake.page at hc
  split at hc
  · cases hc
    exact h.orphan_ok _ ‹_›
  · exact h.pages_ok c (List.mem_of_getLast? hc)

/-- The page ends (R56, R57). -/
theorem endPage_intakeOk {n : Bool} (h : IntakeOk s) : IntakeOk (endPage n s) := by
  have h0 := h
  obtain ⟨h1, h2, h3, h4, h5, h6⟩ := h
  unfold endPage
  split
  · rename_i p hp
    have hn := (h6 (by simp [hp])).1
    exact ⟨h1, h2, h3, by simp, by simp [hn], by simp⟩
  · rename_i hop
    split
    · rename_i hn
      exact ⟨h1, h2, h3, h4, by simp [hn], by simp [hop]⟩
    · rename_i c hc
      dsimp only
      have hk := PageOk.addFlags (f := { IntakeFlags.none with short := !c.allArrived, noEnd := n })
        (h3 c (List.mem_of_getLast? hc))
      refine setPage_intakeOk h0 ⟨hk.e_le, by simp⟩ (by simpa using h2) (by simp [hop]) (by simp)

theorem endOpenPage_intakeOk (h : IntakeOk s) : IntakeOk (endOpenPage s) := by
  unfold endOpenPage
  split
  · exact endPage_intakeOk h
  · exact endPage_intakeOk h
  · rename_i hd
    obtain ⟨h1, h2, h3, h4, h5, h6⟩ := h
    rw [hd] at h5 h6
    refine ⟨h1, h2, h3, h4, fun c hc he hv => ?_, fun ho => ?_⟩
    · rcases h5 c hc he hv with h | h <;> cases h
    · rcases (h6 ho).2 with h | h <;> cases h
  · exact h
  · exact h

/-- A voided context is purged (R61). -/
theorem purgeExposing_intakeOk (h : IntakeOk s) : IntakeOk (purgeExposing s) := by
  unfold purgeExposing
  split
  · exact h
  · rename_i c rest hc
    have h1 : IntakeOk (s.setIntake { s.intake with
        store := s.intake.store.filter fun l => l.cell != c.cell
        contexts := { c with voided := true, pendingLine := none } :: rest
        state := purgedState s.intake }) := by
      obtain ⟨h1, h2, h3, h4, h5, h6⟩ := h
      rw [hc] at h1 h3 h5
      have hno : s.intake.orphan = none := by
        cases ho : s.intake.orphan with
        | none => rfl
        | some p => have := (h6 (by simp [ho])).1; simp [hc] at this
      constructor <;> simp only [State.setIntake_intake]
      · exact h1
      · exact (List.length_filter_le _ _).trans h2
      · intro x hx
        rcases List.mem_cons.mp hx with rfl | hx
        · exact ⟨(h3 c (by simp)).e_le, by simp⟩
        · exact h3 x (by simp [hx])
      · exact h4
      · cases rest with
        | nil =>
          intro x hx
          simp only [List.getLast?_singleton, Option.some.injEq] at hx
          subst hx
          simp
        | cons a l =>
          intro x hx he hv
          have := h5 x (by simpa using hx) he hv
          unfold purgedState
          simpa [hc] using this
      · simp [hno]
    dsimp only
    split
    · exact dropBand_intakeOk h1
    · exact h1

/-- The EXPOSING context leaves at its release (R56, R82). -/
theorem dropExposing_intakeOk (h : IntakeOk s) : IntakeOk (dropExposing s) := by
  unfold dropExposing
  split
  · rename_i x c rest _ hc
    split
    · exact h
    · obtain ⟨h1, h2, h3, h4, h5, h6⟩ := h
      rw [hc] at h1 h3 h5
      have hno : s.intake.orphan = none := by
        cases ho : s.intake.orphan with
        | none => rfl
        | some p => have := (h6 (by simp [ho])).1; simp [hc] at this
      constructor <;> simp only [State.setIntake_intake]
      · simp only [List.length_cons] at h1; omega
      · exact h2
      · exact fun x hx => h3 x (by simp [hx])
      · intro p hp
        unfold orphanAfter at hp
        split at hp
        · cases hp; exact h3 c (by simp)
        · simp [hno] at hp
      · intro p hp he hv
        refine h5 p ?_ he hv
        cases rest with
        | nil => cases hp
        | cons a l => simpa using hp
      · intro ho
        unfold orphanAfter at ho
        split at ho
        · rename_i hcond
          simp only [Bool.and_eq_true, List.isEmpty_iff, Bool.not_eq_true'] at hcond
          obtain ⟨⟨rfl, he⟩, hv⟩ := hcond
          exact ⟨rfl, h5 c (by simp) he hv⟩
        · simp [hno] at ho
  · exact h

theorem releaseOnly_intakeOk (h : IntakeOk s) : IntakeOk (releaseOnly s) :=
  (dropExposing_intakeOk h).same (by simp [releaseOnly])

theorem release_intakeOk (h : IntakeOk s) : IntakeOk (release s) :=
  (releaseOnly_intakeOk h).same (by simp [release])

/-! ### Lines -/

/-- A line leaves the front of the store. -/
theorem IntakeOk.popLine {l : PlacedLine} {rest : List PlacedLine} (h : IntakeOk s)
    (hl : s.intake.store = l :: rest) : IntakeOk (s.setIntake { s.intake with store := rest }) :=
  h.congr rfl rfl rfl (by simp [hl])

theorem startImage_intakeOk {x : Exposure} {g : List Nat} (h : IntakeOk s) : IntakeOk (startImage x g s) :=
  h.same (by simp)

theorem voidFrame_intakeOk (h : IntakeOk s) : IntakeOk (voidFrame s) := by
  have h1 := purgeExposing_intakeOk h
  unfold voidFrame
  dsimp only
  split <;> exact h1.same (by simp)

theorem underrun_intakeOk {x : Exposure} (h : IntakeOk s) : IntakeOk (underrun x s) := by
  unfold underrun
  split
  · exact voidFrame_intakeOk h
  · exact h.same rfl

theorem dueLineStart_intakeOk (h : IntakeOk s) : IntakeOk (dueLineStart s) := by
  unfold dueLineStart
  (repeat' split) <;> first
    | exact h
    | exact underrun_intakeOk h
    | exact startImage_intakeOk (h.popLine ‹_›)
    | exact h.same (by simp)

theorem endHold_intakeOk (h : IntakeOk s) : IntakeOk (endHold s) := by
  unfold endHold
  (repeat' split) <;> first
    | exact h
    | exact startImage_intakeOk (h.popLine ‹_›)

/-- A line enters the store for a page that stays open where it was (R53, R59). -/
theorem storeLine_intakeOk {c : Context} {g : List Nat} (h : IntakeOk s) (hp : PageOk c)
    (hr : storeRoom s = true) (hst : c.ended = false → c.voided = false →
      s.intake.state = .taking ∨ s.intake.state = .fillTop) : IntakeOk (s.setIntake (storeLine c g s.intake)) := by
  have := setPage_intakeOk (s := s) (c := { c with placed := c.placed + 1 }) (st := s.intake.state)
    (l := s.intake.store ++ [{ cell := c.cell, lineNo := c.placed, grays := g }]) (b := s.intake.band)
    (ph := s.intake.pheadChecked) h ⟨hp.e_le, hp.pending_d⟩
    (by simp only [storeRoom, decide_eq_true_eq] at hr; simp; omega) (fun ho => (h.orphan_alone ho).2) hst
  unfold storeLine
  exact this.same (by simp)

theorem appendLine_intakeOk {c : Context} {g : List Nat} (h : IntakeOk s) (hp : PageOk c)
    (hr : storeRoom s = true) (hst : c.ended = false → c.voided = false →
      s.intake.state = .taking ∨ s.intake.state = .fillTop) : IntakeOk (appendLine c g s) :=
  endHold_intakeOk (storeLine_intakeOk h hp hr hst)

theorem advanceBand_intakeOk {b : Band} {n : Nat} (h : IntakeOk s) : IntakeOk (advanceBand b n s) :=
  h.congr (by simp) (by simp) (by simp) (by simp)

/-! ### The exposure engine -/

theorem handOver_intakeOk {o : CellState} {x : Exposure} {r : FrameResult} (h : IntakeOk s) :
    IntakeOk (handOver o x r s) := by
  unfold handOver
  dsimp only
  split
  · exact release_intakeOk (h.same (by simp))
  · exact h.same (by simp)

theorem frameEndStopped_intakeOk {x : Exposure} (h : IntakeOk s) : IntakeOk (frameEndStopped x s) := by
  unfold frameEndStopped frameEndVoid
  split
  · exact releaseOnly_intakeOk h
  · exact handOver_intakeOk h

theorem imageLineEnd_intakeOk {x : Exposure} {b : List Nat} {m : Nat} (h : IntakeOk s) :
    IntakeOk (imageLineEnd x b m s) := by
  unfold imageLineEnd frameEndExposed
  dsimp only
  (repeat' split) <;> first
    | exact frameEndStopped_intakeOk (h.same rfl)
    | exact handOver_intakeOk (h.same rfl)
    | exact dueLineStart_intakeOk (h.same rfl)

theorem floodLineEnd_intakeOk {x : Exposure} (h : IntakeOk s) : IntakeOk (floodLineEnd x s) := by
  unfold floodLineEnd frameEndVoid
  dsimp only
  (repeat' split) <;> first
    | exact frameEndStopped_intakeOk (h.same rfl)
    | exact handOver_intakeOk (h.same rfl)
    | exact dueLineStart_intakeOk (h.same rfl)

theorem frameStart_intakeOk (h : IntakeOk s) : IntakeOk (frameStart s) := by
  unfold frameStart
  split
  · exact h
  · exact dueLineStart_intakeOk (h.same (by simp))

theorem stopEngine_intakeOk (h : IntakeOk s) : IntakeOk (stopEngine s) := by
  unfold stopEngine engineToIdle
  (repeat' split) <;> first
    | exact h
    | exact h.same rfl
    | exact frameEndStopped_intakeOk h
    | exact frameEndStopped_intakeOk (h.same rfl)

theorem engineFault_intakeOk (h : IntakeOk s) : IntakeOk (engineFault s) := by
  unfold engineFault engineToIdle
  split <;> first
    | exact h
    | exact h.same rfl
    | exact handOver_intakeOk h

/-! ### The job controller -/

theorem endingActions_intakeOk : IntakeOk (endingActions s) :=
  stopEngine_intakeOk ((clearIntake_intakeOk (s := s)).same rfl)

theorem completeNoStock_intakeOk {f : Fiche} (h : IntakeOk s) : IntakeOk (completeNoStock f s) := by
  unfold completeNoStock
  split
  · exact (clearIntake_intakeOk (s := s)).same (by simp)
  · exact h

theorem completeJob_intakeOk (h : IntakeOk s) : IntakeOk (completeJob s) := by
  unfold completeJob
  (repeat' split) <;> first
    | exact h
    | exact completeNoStock_intakeOk h
    | exact h.same (by simp)

theorem jobProceeds_intakeOk (h : IntakeOk s) : IntakeOk (jobProceeds s) :=
  completeJob_intakeOk (h.same (by simp))

theorem jobTests_intakeOk (h : IntakeOk s) : IntakeOk (jobTests s) :=
  dueLineStart_intakeOk (completeJob_intakeOk (h.same (by simp)))

theorem takeNoStock_intakeOk (h : IntakeOk s) : IntakeOk (takeNoStock s) := by
  unfold takeNoStock
  dsimp only
  split
  · split
    · exact (clearIntake_intakeOk (s := setStack .noStack (setOutcome .noStock s))).same (by simp)
    · exact clearIntake_intakeOk
  · exact h

theorem takeHeadNotReady_intakeOk (h : IntakeOk s) : IntakeOk (takeHeadNotReady s) := by
  unfold takeHeadNotReady
  split
  · exact endingActions_intakeOk
  · exact h

theorem takeTransportFault_intakeOk {c : TransportCode} (h : IntakeOk s) : IntakeOk (takeTransportFault c s) := by
  unfold takeTransportFault
  split
  · exact h
  · exact engineFault_intakeOk clearIntake_intakeOk

theorem transportFault_intakeOk {c : TransportCode} {f : InFlight} (h : IntakeOk s) :
    IntakeOk (transportFault c f s) := by
  have h1 : ∀ u, IntakeOk u → IntakeOk (takePending u) := fun u hu => hu.same (by simp)
  unfold transportFault
  exact h1 _ (takeTransportFault_intakeOk (h.same (by simp)))

theorem loadNoStock_intakeOk (h : IntakeOk s) : IntakeOk (loadNoStock s) := by
  have h1 : ∀ u, IntakeOk u → IntakeOk (takePending u) := fun u hu => hu.same (by simp)
  exact h1 _ (takeNoStock_intakeOk (h.same rfl))

theorem motionDone_intakeOk {f : InFlight} (h : IntakeOk s) : IntakeOk (motionDone f s) := by
  have h1 : ∀ u, IntakeOk u → IntakeOk (takePending u) := fun u hu => hu.same (by simp)
  have h2 : ∀ m u, IntakeOk u → IntakeOk (tellDone m u) := by
    intro m u hu
    unfold tellDone
    (repeat' split) <;> first
      | exact hu
      | exact frameStart_intakeOk hu
      | exact hu.same (by simp)
  exact h1 _ (h2 _ _ (h.same rfl))

end Sys2Proof.Machine
end

