-- ==== Sys2Proof/Laws/LinkKept.lean ====
section
/-!
SUPPORT. Every shared operation keeps `LinkOk`.
-/

namespace Sys2Proof.Machine

variable {s t : State}

/-- `LinkOk` reads the link interface and page intake's notes on the head record. -/
theorem LinkOk.congr (h : LinkOk s) (hl : t.link = s.link) (hb : t.intake.band.isSome = true → s.intake.band.isSome = true)
    (hp : t.intake.pheadChecked = true → s.intake.pheadChecked = true) : LinkOk t := by
  obtain ⟨h1, h2, h3, h4, h5, h6, h7, h8, h9, h10, h11, h12⟩ := h
  rw [← hl] at h1 h2 h3 h4 h5 h6 h7 h8 h9 h10 h11 h12
  exact ⟨h1, h2, h3, h4, h5, h6, h7, h8, h9, h10, fun h => h11 (hb h), fun h => h12 (hp h)⟩

/-- An operation that leaves the link interface and page intake alone keeps `LinkOk`. -/
theorem LinkOk.frame (h : LinkOk s) (hl : t.link = s.link) (hi : t.intake = s.intake) : LinkOk t :=
  h.congr hl (by rw [hi]; exact id) (by rw [hi]; exact id)

theorem LinkOk.setJob (h : LinkOk s) {j : Job} : LinkOk (s.setJob j) := h.frame rfl rfl

theorem LinkOk.setFiche (h : LinkOk s) {f : Fiche} : LinkOk (s.setFiche f) := h.frame rfl rfl

theorem LinkOk.setEngine (h : LinkOk s) {e : Engine} : LinkOk (s.setEngine e) := h.frame rfl rfl

theorem LinkOk.setTransport (h : LinkOk s) {x : Transport} : LinkOk (s.setTransport x) := h.frame rfl rfl

theorem takePending_linkOk (h : LinkOk s) : LinkOk (takePending s) := h.frame (by simp) (by simp)

theorem LinkOk.up_of_inbound (h : LinkOk s) (hi : s.link.inbound ≠ []) : s.link.state = .up := by
  by_contra hu
  exact hi (h.not_up hu).1

theorem placeReport_linkOk {r : Report} (h : LinkOk s) (hu : s.link.state = .up)
    (hr : s.link.reports.length < Config.reportQueueSize) (hg : r.isGrant = false) : LinkOk (placeReport r s) := by
  obtain ⟨h1, h2, h3, h4, h5, h6, h7, h8, h9, h10, h11, h12⟩ := h
  constructor <;> (try simp only [placeReport_frame]) <;> try assumption
  · simp [placeReport]; omega
  · exact fun hd => absurd hu hd
  · rw [← h7]
    simp only [placeReport, State.setLink_link]
    cases s.link.reports <;> simp [hg]
  · simp only [placeReport, State.setLink_link]
    cases hq : s.link.reports with
    | nil => simp
    | cons a l => rw [hq] at h8; simpa [or_imp, forall_and, hg] using h8

theorem composeSlot_linkOk {p : Producer} {r : Report} (h : LinkOk s) (hg : r.isGrant = false) :
    LinkOk (composeSlot p r s) := by
  unfold composeSlot
  split
  · rename_i hc
    simp only [Bool.and_eq_true, State.linkUp, beq_iff_eq] at hc
    split
    · rename_i hr
      exact placeReport_linkOk h hc.1 (by
        simp only [Bool.and_eq_true, queueRoom, decide_eq_true_eq] at hr
        exact hr.1) hg
    · obtain ⟨h1, h2, h3, h4, h5, h6, h7, h8, h9, h10, h11, h12⟩ := h
      constructor <;> simp only [State.setLink_link, State.setLink_intake] <;> try assumption
      · have := hc.2
        simp only [slotFree, Bool.not_eq_true', List.any_eq_false, beq_iff_eq] at this
        simp only [List.map_append, List.map_cons, List.map_nil, List.nodup_append, List.nodup_cons, List.not_mem_nil,
          not_false_eq_true, List.nodup_nil, and_self, true_and, h4, List.mem_singleton, ne_eq, forall_eq,
          List.mem_map]
        rintro a ⟨x, hx, rfl⟩
        exact this x hx
      · exact fun hd => absurd hc.1 hd
      · intro x hx
        simp only [List.mem_append, List.mem_singleton] at hx
        rcases hx with hx | rfl
        · exact h9 x hx
        · exact hg
  · exact h

theorem composeDiscard_linkOk {r : Report} (h : LinkOk s) (hg : r.isGrant = false) : LinkOk (composeDiscard r s) := by
  unfold composeDiscard
  split
  · rename_i hu
    simp only [State.linkUp, beq_iff_eq] at hu
    split
    · rename_i hr
      exact placeReport_linkOk h hu (by simpa [queueRoom] using hr) hg
    · obtain ⟨h1, h2, h3, h4, h5, h6, h7, h8, h9, h10, h11, h12⟩ := h
      exact ⟨h1, h2, h3, h4, h5, h6, h7, h8, h9, h10, h11, h12⟩
  · exact h

theorem raiseCounter_linkOk {n : Nat} (h : LinkOk s) (hu : s.link.state = .up) : LinkOk (raiseCounter n s) := by
  obtain ⟨h1, h2, h3, h4, h5, h6, h7, h8, h9, h10, h11, h12⟩ := h
  constructor <;> (try simp only [raiseCounter_frame]) <;> try assumption
  · simp [raiseCounter]
  · exact fun hd => absurd hu hd

theorem removeHead_linkOk (h : LinkOk s) (hu : s.link.state = .up) : LinkOk (removeHead s) := by
  refine raiseCounter_linkOk ?_ hu
  obtain ⟨h1, h2, h3, h4, h5, h6, h7, h8, h9, h10, h11, h12⟩ := h
  constructor <;>
    simp only [State.setLink_link, State.setIntake_link, State.setIntake_intake, Option.isSome_none, Bool.false_eq_true,
      false_imp_iff] <;> try assumption
  · simp; omega
  · exact fun hd => absurd hu hd
  · intro hw; simp [h6 hw]
  · exact fun r hr => h10 r (List.mem_of_mem_tail hr)

theorem flushInbound_linkOk (h : LinkOk s) (hu : s.link.state = .up) : LinkOk (flushInbound s) := by
  refine raiseCounter_linkOk ?_ hu
  obtain ⟨h1, h2, h3, h4, h5, h6, h7, h8, h9, h10, h11, h12⟩ := h
  constructor <;>
    simp only [State.setLink_link, State.setIntake_link, State.setIntake_intake, Option.isSome_none, Bool.false_eq_true,
      false_imp_iff] <;> try assumption
  · simp
  · exact fun hd => absurd hu hd
  · simp
  · simp

theorem refuse_linkOk {p : Producer} {r : Record} {code : RefusalCode} (h : LinkOk s) (hu : s.link.state = .up) :
    LinkOk (refuse p r code s) := by
  have h1 : LinkOk (composeSlot p (.refused { kind := r.kind, tag := r.tag, code := code }) s) :=
    composeSlot_linkOk h rfl
  refine removeHead_linkOk ?_ (by simpa using hu)
  obtain ⟨h1, h2, h3, h4, h5, h6, h7, h8, h9, h10, h11, h12⟩ := h1
  exact ⟨h1, h2, h3, h4, h5, h6, h7, h8, h9, h10, h11, h12⟩

theorem dropFrame_linkOk {e : LinkErrReport} {c : Bool} (h : LinkOk s) (hu : s.link.state = .up) :
    LinkOk (dropFrame e c s) := by
  have h1 := composeDiscard_linkOk (r := .linkErr e) h rfl
  cases c with
  | true => exact raiseCounter_linkOk h1 (by simpa using hu)
  | false => exact h1

theorem creditIfDue_linkOk {c0 : Nat} (h : LinkOk s) : LinkOk (creditIfDue c0 s) := by
  unfold creditIfDue
  split
  · rename_i hc
    simp only [Bool.and_eq_true, State.linkUp, beq_iff_eq, List.isEmpty_iff] at hc
    exact placeReport_linkOk h hc.1.1.1.1 (by simp [hc.1.2, Config.reportQueueSize]) rfl
  · exact h

theorem beginTransmission_linkOk (h : LinkOk s) : LinkOk (beginTransmission s) := by
  unfold beginTransmission
  split
  · rename_i r rest _ hq
    split
    · rename_i hu
      simp only [State.linkUp, beq_iff_eq] at hu
      obtain ⟨h1, h2, h3, h4, h5, h6, h7, h8, h9, h10, h11, h12⟩ := h
      rw [hq] at h2 h7 h8
      simp only [List.map_cons, List.head?_cons, Option.some.injEq, List.tail_cons] at h7 h8
      constructor <;> simp only [State.setLink_link, State.setLink_intake] <;> try assumption
      · simp at h2; omega
      · simp
      · exact fun hd => absurd hu hd
      · intro hw
        simp only [Bool.and_eq_true] at hw
        exact h6 hw.1
      · cases hr : r.isGrant
        · simp only [hr, Bool.false_eq_true, false_iff] at h7
          simp only [Bool.not_false, Bool.and_true, h7]
          cases rest with
          | nil => simp
          | cons a l => simp [h8 a (by simp)]
        · simp only [Bool.not_true, Bool.and_false, Bool.false_eq_true, iff_false]
          cases rest with
          | nil => simp
          | cons a l => simp [h8 a (by simp)]
      · exact fun x hx => h8 x (List.mem_of_mem_tail hx)
    · exact h
  · exact h

theorem linkFinish_linkOk {s0 : State} (h : LinkOk s) : LinkOk (linkFinish s0 s) :=
  beginTransmission_linkOk (creditIfDue_linkOk h)

/-! ### Page intake and the exposure engine -/

theorem LinkOk.up_of_band (h : LinkOk s) (hb : s.intake.band.isSome = true) : s.link.state = .up := by
  refine h.up_of_inbound fun hi => ?_
  have := h.band_head hb
  simp [hi] at this

theorem dropBand_linkOk (h : LinkOk s) : LinkOk (dropBand s) := by
  unfold dropBand
  split
  · rename_i hb
    exact removeHead_linkOk h (h.up_of_band hb)
  · exact h

theorem endPage_linkOk {n : Bool} (h : LinkOk s) : LinkOk (endPage n s) := h.congr (by simp) (by simp) (by simp)

theorem endOpenPage_linkOk (h : LinkOk s) : LinkOk (endOpenPage s) := h.congr (by simp) (by simp) (by simp)

theorem purgeExposing_linkOk (h : LinkOk s) : LinkOk (purgeExposing s) := by
  unfold purgeExposing
  split
  · exact h
  · dsimp only
    split
    · exact dropBand_linkOk (h.congr (by simp) (by simp) (by simp))
    · exact h.congr (by simp) (by simp) (by simp)

theorem clearIntake_linkOk (h : LinkOk s) : LinkOk (clearIntake s) :=
  (dropBand_linkOk (h.frame (t := carryFlags s) (by simp) (by simp))).congr rfl id id

theorem advanceBand_linkOk {b : Band} {n : Nat} (h : LinkOk s) (hb : s.intake.band.isSome = true) :
    LinkOk (advanceBand b n s) := by
  unfold advanceBand
  split
  · exact removeHead_linkOk h (h.up_of_band hb)
  · exact h.congr (by simp) (by simp [hb]) (by simp)

theorem admit_linkOk (h : LinkOk s) : LinkOk (admitContext s) := h.frame (by simp) (by simp)

theorem releaseOnly_linkOk (h : LinkOk s) : LinkOk (releaseOnly s) := h.congr (by simp) (by simp) (by simp)

theorem release_linkOk (h : LinkOk s) : LinkOk (release s) := h.congr (by simp) (by simp) (by simp)

theorem startFlood_linkOk {x : Exposure} (h : LinkOk s) : LinkOk (startFlood x s) := h.frame (by simp) (by simp)

theorem startImage_linkOk {x : Exposure} {g : List Nat} (h : LinkOk s) : LinkOk (startImage x g s) :=
  h.frame (by simp) (by simp)

theorem voidFrame_linkOk (h : LinkOk s) : LinkOk (voidFrame s) := by
  unfold voidFrame
  dsimp only
  split
  · exact startFlood_linkOk ((purgeExposing_linkOk h).frame (by simp) (by simp))
  · exact (purgeExposing_linkOk h).frame (by simp) (by simp)

theorem underrun_linkOk {x : Exposure} (h : LinkOk s) : LinkOk (underrun x s) := by
  unfold underrun
  split
  · exact voidFrame_linkOk h
  · exact h.frame (by simp) (by simp)

theorem dueLineStart_linkOk (h : LinkOk s) : LinkOk (dueLineStart s) := by
  unfold dueLineStart
  (repeat' split) <;> first
    | exact h
    | exact underrun_linkOk h
    | exact startFlood_linkOk h
    | exact startImage_linkOk (h.congr (by simp) (by simp) (by simp))

theorem endHold_linkOk (h : LinkOk s) : LinkOk (endHold s) := h.congr (by simp) (by simp) (by simp)

theorem frameStart_linkOk (h : LinkOk s) : LinkOk (frameStart s) := by
  unfold frameStart
  split
  · exact h
  · exact dueLineStart_linkOk (h.frame (by simp) (by simp))

theorem handOver_linkOk {old : CellState} {x : Exposure} {r : FrameResult} (h : LinkOk s) :
    LinkOk (handOver old x r s) := by
  unfold handOver
  dsimp only
  have h1 : ∀ u f, LinkOk u → LinkOk (composeSlot .engine (.frame f) u) := fun u f hu => composeSlot_linkOk hu rfl
  have h2 : LinkOk (recordResult x.cell old r s) := h.frame (by simp) (by simp)
  split
  · exact release_linkOk (h1 _ _ h2).setEngine
  · exact (h1 _ _ h2).setEngine

theorem frameEndStopped_linkOk {x : Exposure} (h : LinkOk s) : LinkOk (frameEndStopped x s) := by
  unfold frameEndStopped
  split
  · exact releaseOnly_linkOk h
  · exact handOver_linkOk h

theorem imageLineEnd_linkOk {x : Exposure} {b : List Nat} {m : Nat} (h : LinkOk s) : LinkOk (imageLineEnd x b m s) := by
  unfold imageLineEnd
  dsimp only
  have h1 : ∀ e, LinkOk (s.setEngine e) := fun e => h.frame (by simp) (by simp)
  (repeat' split) <;> first
    | exact frameEndStopped_linkOk (h1 _)
    | exact handOver_linkOk (h1 _)
    | exact dueLineStart_linkOk (h1 _)

theorem floodLineEnd_linkOk {x : Exposure} (h : LinkOk s) : LinkOk (floodLineEnd x s) := by
  unfold floodLineEnd
  dsimp only
  have h1 : ∀ e, LinkOk (s.setEngine e) := fun e => h.frame (by simp) (by simp)
  (repeat' split) <;> first
    | exact frameEndStopped_linkOk (h1 _)
    | exact handOver_linkOk (h1 _)
    | exact dueLineStart_linkOk (h1 _)

theorem stopEngine_linkOk (h : LinkOk s) : LinkOk (stopEngine s) := by
  unfold stopEngine
  have h1 : ∀ e, LinkOk (s.setEngine e) := fun e => h.frame (by simp) (by simp)
  (repeat' split) <;> first
    | exact h
    | exact h1 _
    | exact frameEndStopped_linkOk h
    | exact frameEndStopped_linkOk (h1 _)

theorem engineFault_linkOk (h : LinkOk s) : LinkOk (engineFault s) := by
  unfold engineFault
  have h1 : ∀ e, LinkOk (s.setEngine e) := fun e => h.frame (by simp) (by simp)
  (repeat' split) <;> first
    | exact h
    | exact h1 _
    | exact handOver_linkOk h

theorem appendLine_linkOk {c : Context} {g : List Nat} (h : LinkOk s) : LinkOk (appendLine c g s) :=
  endHold_linkOk (h.congr (by simp) (by simp [storeLine]) (by simp [storeLine]))

/-! ### Head monitor -/

theorem compareValue_linkOk {v : Nat} (h : LinkOk s) : LinkOk (compareValue v s) := by
  have h1 : ∀ k v o n u, LinkOk u → LinkOk (limitAlert k v o n u) := by
    intro k v o n u hu
    unfold limitAlert
    split
    · exact composeDiscard_linkOk hu rfl
    · exact hu
  unfold compareValue
  dsimp only
  refine h1 _ _ _ _ _ (h1 _ _ _ _ _ (h.frame ?_ ?_)) <;> split <;> simp

theorem takeConversion_linkOk {raw : Nat} (h : LinkOk s) : LinkOk (takeConversion raw s) := by
  have h1 : ∀ n u, LinkOk u → LinkOk (completeAverage n u) := by
    intro n u hu
    unfold completeAverage
    dsimp only
    have hs : ∀ v, LinkOk v → LinkOk (updateWarm v) := fun v hv => hv.frame (by simp) (by simp)
    have hc : ∀ v, LinkOk v → LinkOk (computeCorrection v) := fun v hv => hv.frame (by simp) (by simp)
    have hh : ∀ x, LinkOk (u.setHead x) := fun x => hu.frame (by simp) (by simp)
    (repeat' split) <;> first
      | exact hs _ (hc _ (compareValue_linkOk (hh _)))
      | exact hs _ (compareValue_linkOk (hh _))
      | exact hs _ (hc _ (hh _))
      | exact hs _ (hh _)
  have hh : ∀ x, LinkOk (s.setHead x) := fun x => h.frame (by simp) (by simp)
  unfold takeConversion
  dsimp only
  (repeat' split) <;> first
    | exact h1 _ _ (compareValue_linkOk (hh _))
    | exact compareValue_linkOk (hh _)
    | exact h1 _ _ (hh _)
    | exact hh _

/-! ### Job controller -/

theorem closeFiche_linkOk {f : Fiche} (h : LinkOk s) : LinkOk (closeFiche f s) :=
  (composeSlot_linkOk (p := .job) (r := .fclosed (fclosedOf f)) h rfl).setFiche

theorem enterIdle_linkOk (h : LinkOk s) : LinkOk (enterIdle s) := h.frame (by simp) (by simp)

theorem endingActions_linkOk (h : LinkOk s) : LinkOk (endingActions s) :=
  stopEngine_linkOk ((clearIntake_linkOk h).frame (by simp) (by simp))

theorem takeStopSignal_linkOk (h : LinkOk s) : LinkOk (takeStopSignal s) := h.frame (by simp) (by simp)

theorem meetOpening_linkOk (h : LinkOk s) : LinkOk (meetOpening s) := h.frame (by simp) (by simp)

theorem composeFopened_linkOk (h : LinkOk s) : LinkOk (composeFopened s) := by
  unfold composeFopened
  split
  · exact h
  · split
    · exact (composeSlot_linkOk (p := .job) (r := .fopened _) h rfl).setJob
    · exact h

theorem closingStep_linkOk (h : LinkOk s) : LinkOk (closingStep s) := h.frame (by simp) (by simp)

theorem completeNoStock_linkOk {f : Fiche} (h : LinkOk s) : LinkOk (completeNoStock f s) := by
  unfold completeNoStock
  split
  · exact enterIdle_linkOk (closeFiche_linkOk ((clearIntake_linkOk h).frame (by simp) (by simp)))
  · exact h

theorem completeEnding_linkOk (h : LinkOk s) : LinkOk (completeEnding s) := by
  unfold completeEnding
  (repeat' split) <;> first
    | exact h
    | exact enterIdle_linkOk h
    | exact enterIdle_linkOk (closeFiche_linkOk h)
    | exact enterIdle_linkOk (h.frame (by simp) (by simp))

theorem completeJob_linkOk (h : LinkOk s) : LinkOk (completeJob s) := by
  unfold completeJob
  (repeat' split) <;> first
    | exact h
    | exact enterIdle_linkOk (closeFiche_linkOk h)
    | exact completeNoStock_linkOk h
    | exact completeEnding_linkOk h
    | exact closeFiche_linkOk h

theorem jobTests_linkOk (h : LinkOk s) : LinkOk (jobTests s) :=
  dueLineStart_linkOk (completeJob_linkOk (closingStep_linkOk (composeFopened_linkOk (meetOpening_linkOk
    (takeStopSignal_linkOk h)))))

theorem jobProceeds_linkOk (h : LinkOk s) : LinkOk (jobProceeds s) :=
  completeJob_linkOk (closingStep_linkOk (composeFopened_linkOk h))

theorem takeNoStock_linkOk (h : LinkOk s) : LinkOk (takeNoStock s) := by
  unfold takeNoStock
  dsimp only
  have h1 : LinkOk (clearIntake (setStack .noStack (setOutcome .noStock s))) :=
    clearIntake_linkOk (h.frame (by simp) (by simp))
  (repeat' split) <;> first
    | exact h
    | exact h1
    | exact h1.frame (by simp) (by simp)

theorem takeHeadNotReady_linkOk (h : LinkOk s) : LinkOk (takeHeadNotReady s) := by
  unfold takeHeadNotReady
  split
  · exact endingActions_linkOk (h.frame (by simp) (by simp))
  · exact h

theorem takeTransportFault_linkOk {c : TransportCode} (h : LinkOk s) : LinkOk (takeTransportFault c s) := by
  unfold takeTransportFault
  split
  · exact h
  · exact engineFault_linkOk (clearIntake_linkOk (h.frame (by simp) (by simp)))

theorem transportFault_linkOk {c : TransportCode} {f : InFlight} (h : LinkOk s) : LinkOk (transportFault c f s) := by
  have h1 : ∀ b u, LinkOk u → LinkOk (transportAlert c f b u) := by
    intro b u hu
    unfold transportAlert
    split
    · exact composeDiscard_linkOk hu rfl
    · exact hu
  have h2 : LinkOk (takeTransportFault c (transportAlert c f s.transport.card (discardPending (s.setTransport
      { s.transport with timer := none, inFlight := none, faultCode := c, card := .fault, position := none })))) :=
    takeTransportFault_linkOk (h1 _ _ (h.frame (by simp) (by simp)))
  exact h2.frame (by simp [transportFault]) (by simp [transportFault])

theorem loadNoStock_linkOk (h : LinkOk s) : LinkOk (loadNoStock s) := by
  have h2 : LinkOk (takeNoStock (s.setTransport { s.transport with
    timer := none, inFlight := none, card := .empty, position := none })) :=
    takeNoStock_linkOk (h.frame (by simp) (by simp))
  exact h2.frame (by simp [loadNoStock]) (by simp [loadNoStock])

theorem motionDone_linkOk {f : InFlight} (h : LinkOk s) : LinkOk (motionDone f s) := by
  have h1 : ∀ m u, LinkOk u → LinkOk (tellDone m u) := by
    intro m u hu
    unfold tellDone
    (repeat' split) <;> first
      | exact hu
      | exact frameStart_linkOk hu
      | exact enterIdle_linkOk hu
      | exact hu.frame (by simp) (by simp)
  unfold motionDone
  exact takePending_linkOk (h1 _ _ h.setTransport)

end Sys2Proof.Machine
end

