-- ==== Sys2Proof/Laws/MotionKept.lean ====
section
/-!
SUPPORT. Every shared operation reaches the transport controller through motion requests only, and keeps `TransportOk`.
-/

namespace Sys2Proof.Machine

variable {s t : State} {P : State → Prop}

/-- A property of the transport controller that every motion request keeps. -/
structure MotionClosed (P : State → Prop) : Prop where
  same : ∀ {s t : State}, P s → t.transport = s.transport → P t
  request : ∀ {s : State} (m : Motion), P s → P (requestMotion m s)

theorem admit_motion (hP : MotionClosed P) (h : P s) : P (admitContext s) := by
  unfold admitContext
  dsimp only
  (repeat' split) <;> first
    | exact h
    | exact hP.same h (by simp)
    | exact hP.request _ (hP.same h (by simp))

theorem release_motion (hP : MotionClosed P) (h : P s) : P (release s) :=
  admit_motion hP (hP.same h (by simp))

theorem handOver_motion {o : CellState} {x : Exposure} {r : FrameResult} (hP : MotionClosed P) (h : P s) :
    P (handOver o x r s) := by
  unfold handOver
  dsimp only
  split
  · exact release_motion hP (hP.same h (by simp))
  · exact hP.same h (by simp)

theorem frameEndStopped_motion {x : Exposure} (hP : MotionClosed P) (h : P s) : P (frameEndStopped x s) := by
  unfold frameEndStopped frameEndVoid
  split
  · exact hP.same h (by simp)
  · exact handOver_motion hP h

theorem imageLineEnd_motion {x : Exposure} {b : List Nat} {m : Nat} (hP : MotionClosed P) (h : P s) :
    P (imageLineEnd x b m s) := by
  unfold imageLineEnd frameEndExposed
  dsimp only
  (repeat' split) <;> first
    | exact frameEndStopped_motion hP (hP.same h rfl)
    | exact handOver_motion hP (hP.same h rfl)
    | exact hP.same h (by simp)

theorem floodLineEnd_motion {x : Exposure} (hP : MotionClosed P) (h : P s) : P (floodLineEnd x s) := by
  unfold floodLineEnd frameEndVoid
  dsimp only
  (repeat' split) <;> first
    | exact frameEndStopped_motion hP (hP.same h rfl)
    | exact handOver_motion hP (hP.same h rfl)
    | exact hP.same h (by simp)

theorem stopEngine_motion (hP : MotionClosed P) (h : P s) : P (stopEngine s) := by
  unfold stopEngine
  (repeat' split) <;> first
    | exact h
    | exact frameEndStopped_motion hP h
    | exact frameEndStopped_motion hP (hP.same h rfl)
    | exact hP.same h (by simp)

theorem engineFault_motion (hP : MotionClosed P) (h : P s) : P (engineFault s) := by
  unfold engineFault
  split <;> first
    | exact h
    | exact handOver_motion hP h
    | exact hP.same h (by simp)

theorem requestEject_motion {e : EjectStack} (hP : MotionClosed P) (h : P s) : P (requestEject e s) :=
  hP.request _ (hP.same h (by simp))

theorem endingActions_motion (hP : MotionClosed P) (h : P s) : P (endingActions s) :=
  stopEngine_motion hP (hP.same h (by simp))

theorem takeStopSignal_motion (hP : MotionClosed P) (h : P s) : P (takeStopSignal s) := by
  unfold takeStopSignal disposeCard fullResetAtStop
  dsimp only
  (repeat' split) <;> first
    | exact h
    | exact requestEject_motion hP (hP.same h rfl)
    | exact hP.request _ (hP.same h (by simp))
    | exact hP.same h (by simp)

theorem meetOpening_motion (hP : MotionClosed P) (h : P s) : P (meetOpening s) := by
  unfold meetOpening noticeOpening requestMove
  dsimp only
  (repeat' split) <;> first
    | exact h
    | exact hP.request _ (hP.same h rfl)
    | exact hP.same h rfl

theorem closingStep_motion (hP : MotionClosed P) (h : P s) : P (closingStep s) := by
  unfold closingStep
  dsimp only
  (repeat' split) <;> first
    | exact h
    | exact requestEject_motion hP (hP.same h (by simp))

theorem jobTests_motion (hP : MotionClosed P) (h : P s) : P (jobTests s) := by
  have h1 : P (closingStep (composeFopened (meetOpening (takeStopSignal s)))) :=
    closingStep_motion hP (hP.same (meetOpening_motion hP (takeStopSignal_motion hP h)) (by simp))
  exact hP.same h1 (by simp [jobTests])

theorem takeHeadNotReady_motion (hP : MotionClosed P) (h : P s) : P (takeHeadNotReady s) := by
  unfold takeHeadNotReady
  split
  · exact endingActions_motion hP (hP.same h (by simp))
  · exact h

theorem takeTransportFault_motion {c : TransportCode} (hP : MotionClosed P) (h : P s) :
    P (takeTransportFault c s) := by
  unfold takeTransportFault
  split
  · exact h
  · exact engineFault_motion hP (hP.same h (by simp))

theorem tellDone_motion {m : Motion} (hP : MotionClosed P) (h : P s) : P (tellDone m s) := by
  unfold tellDone
  (repeat' split) <;> first
    | exact h
    | exact requestEject_motion hP h
    | exact hP.same h (by simp)

/-! ### TransportOk -/

/-- `TransportOk` without the rule that a request waits only behind a command, which the end of a command suspends until
the waiting request is judged (R148). -/
structure TransportCore (s : State) : Prop where
  card_of_flight : ∀ f, s.transport.inFlight = some f → s.transport.card = f.motion.card
  card_at_rest : s.transport.inFlight = none →
    s.transport.card ∈ [CardState.empty, CardState.loaded, CardState.atCell, CardState.fault]
  timer_flight : s.transport.timer.isSome = true → s.transport.inFlight.isSome = true
  position_at_cell : s.transport.position.isSome = true ↔ s.transport.card = .atCell
  fault_code : s.transport.card = .fault → s.transport.faultCode ≠ .noFault

theorem TransportOk.core (h : TransportOk s) : TransportCore s := by
  obtain ⟨h1, h2, _, h4, h5, h6⟩ := h
  exact ⟨h1, h2, h4, h5, h6⟩

theorem TransportCore.ok (h : TransportCore s)
    (hp : s.transport.pendingReq.isSome = true → s.transport.inFlight.isSome = true) : TransportOk s := by
  obtain ⟨h1, h2, h4, h5, h6⟩ := h
  exact ⟨h1, h2, hp, h4, h5, h6⟩

theorem TransportCore.same (h : TransportCore s) (ht : t.transport = s.transport) : TransportCore t := by
  obtain ⟨h1, h2, h4, h5, h6⟩ := h
  rw [← ht] at h1 h2 h4 h5 h6
  exact ⟨h1, h2, h4, h5, h6⟩

theorem TransportOk.same (h : TransportOk s) (ht : t.transport = s.transport) : TransportOk t :=
  (h.core.same ht).ok (by rw [ht]; exact h.pending_waits)

theorem sendMotion_core {m : Motion} : TransportCore (sendMotion m s) := by
  unfold sendMotion
  constructor <;> simp <;> cases m <;> simp [Motion.card]

theorem TransportCore.setPending (h : TransportCore s) {r : Option Motion} :
    TransportCore (s.setTransport { s.transport with pendingReq := r }) := by
  obtain ⟨h1, h2, h4, h5, h6⟩ := h
  exact ⟨h1, h2, h4, h5, h6⟩

theorem sendOrDiscard_core {m : Motion} (h : TransportCore s) : TransportCore (sendOrDiscard m s) := by
  unfold sendOrDiscard
  split
  · exact sendMotion_core
  · exact h

theorem requestMotion_core {m : Motion} (h : TransportCore s) : TransportCore (requestMotion m s) := by
  unfold requestMotion
  (repeat' split) <;> first
    | exact h
    | exact h.setPending
    | exact sendOrDiscard_core h

theorem requestMotion_ok {m : Motion} (h : TransportOk s) : TransportOk (requestMotion m s) := by
  refine (requestMotion_core h.core).ok ?_
  have := h.pending_waits
  unfold requestMotion sendOrDiscard sendMotion
  (repeat' split) <;> simp_all

theorem transportCore_closed : MotionClosed TransportCore := ⟨fun h ht => h.same ht, fun _ h => requestMotion_core h⟩

theorem transportOk_closed : MotionClosed TransportOk := ⟨fun h ht => h.same ht, fun _ h => requestMotion_ok h⟩

/-- Once the waiting request is judged, none waits (R148). -/
theorem takePending_ok (h : TransportCore s) : TransportOk (takePending s) := by
  unfold takePending
  split
  · rename_i hn
    exact h.ok (by simp [hn])
  · refine (sendOrDiscard_core h.setPending).ok ?_
    unfold sendOrDiscard sendMotion
    split <;> simp

theorem discardPending_core (h : TransportCore s) : TransportCore (discardPending s) := by
  unfold discardPending
  split
  · exact h
  · exact h.setPending

theorem discardPending_ok (h : TransportOk s) : TransportOk (discardPending s) := by
  refine (discardPending_core h.core).ok ?_
  have := h.pending_waits
  unfold discardPending
  split <;> simp_all

theorem transportFault_ok {c : TransportCode} {f : InFlight} (hc : c ≠ .noFault) : TransportOk (transportFault c f s) := by
  unfold transportFault
  refine takePending_ok (takeTransportFault_motion transportCore_closed (TransportCore.same
    (discardPending_core (s := s.setTransport { s.transport with
      timer := none, inFlight := none, faultCode := c, card := .fault, position := none }) ?_) (by simp)))
  constructor <;> simp [hc]

theorem loadNoStock_ok : TransportOk (loadNoStock s) := by
  unfold loadNoStock
  refine takePending_ok (TransportCore.same (s := s.setTransport { s.transport with
    timer := none, inFlight := none, card := .empty, position := none }) ?_ (by simp))
  constructor <;> simp

theorem motionDone_ok {f : InFlight} : TransportOk (motionDone f s) := by
  unfold motionDone
  dsimp only
  refine takePending_ok (tellDone_motion transportCore_closed ?_)
  constructor <;> cases f.motion <;> simp [Motion.cardDone, Motion.positionDone]

end Sys2Proof.Machine
end

