-- ==== Sys2Proof/Laws/TableWrites.lean ====
section
/-!
SUPPORT. What a write to the table store changes, and what it leaves.
-/

namespace Sys2Proof.Machine

theorem getD_set_ne {α : Type} {l : List α} {n m : Nat} {a d : α} (h : n ≠ m) : (l.set n a).getD m d = l.getD m d := by
  rw [List.getD_eq_getElem?_getD, List.getD_eq_getElem?_getD, List.getElem?_set_ne h]

theorem getD_set_self {α : Type} {l : List α} {n : Nat} {a d : α} (h : n < l.length) : (l.set n a).getD n d = a := by
  rw [List.getD_eq_getElem?_getD, List.getElem?_set_self h]
  rfl

theorem mem_of_mem_set {α : Type} {l : List α} {i : Nat} {a x : α} (h : x ∈ l.set i a) : x = a ∨ x ∈ l := by
  rcases List.mem_or_eq_of_mem_set h with h | h
  · exact .inr h
  · exact .inl h

theorem readValues_length (n : Nat) (bs : List Byte) : (readValues n bs).length = n := by
  induction n generalizing bs with
  | zero => rfl
  | succ n ih => simp [readValues, ih]

/-- A taken write changes one table at one entry (R168): the pin marks and every other entry stay. -/
theorem writeEntry_other {sel : TableSel} {n : Nat} {c : List Byte} {t t' : Tables} {w : WrittenEntry}
    (h : writeEntry sel n c t = some (t', w)) :
    t'.pins = t.pins ∧ (∀ m, (sel = .layout ∧ n = m) ∨ t'.layoutEntry m = t.layoutEntry m)
      ∧ (∀ m, (sel = .curve ∧ n = m) ∨ t'.curveEntry m = t.curveEntry m)
      ∧ (∀ m, (sel = .profile ∧ n = m) ∨ t'.profileEntry m = t.profileEntry m) := by
  have hne : ∀ m, n = m ∨ n ≠ m := fun m => Decidable.em _
  unfold writeEntry at h
  cases sel <;> simp only at h <;> (repeat' split at h) <;> cases h <;>
    refine ⟨rfl, fun m => ?_, fun m => ?_, fun m => ?_⟩ <;> first
      | exact .inr rfl
      | (rcases hne m with e | e
         · exact .inl ⟨rfl, e⟩
         · exact .inr (getD_set_ne e))

/-- A taken TWRITE was judged against the entry's pin mark (R167). -/
theorem judgeTwrite_taken {p : List Byte} {t t' : Tables} {w : WrittenEntry} {sel : TableSel} {n : Nat}
    (h : judgeTwrite p t = .inr (t', w, sel, n)) :
    readEntry p = some (sel, n) ∧ t.pinned sel n = false ∧ writeEntry sel n (p.drop 2) t = some (t', w) := by
  unfold judgeTwrite at h
  (repeat' split at h) <;> cases h
  exact ⟨by assumption, Bool.eq_false_of_not_eq_true (by assumption), by assumption⟩

/-- The entry number lies in the table (R158). -/
theorem readEntry_lt {p : List Byte} {sel : TableSel} {n : Nat} (h : readEntry p = some (sel, n)) : n < sel.size := by
  unfold readEntry at h
  (repeat' split at h) <;> cases h
  assumption

/-- A taken TWRITE leaves every pinned entry as it was (R174). -/
theorem judgeTwrite_pinned {p : List Byte} {t t' : Tables} {w : WrittenEntry} {sel : TableSel} {n : Nat} {q : Pins}
    (h : judgeTwrite p t = .inr (t', w, sel, n)) (hq : t.pins = some q) :
    t'.pins = t.pins ∧ t'.profileEntry q.profile = t.profileEntry q.profile
      ∧ t'.layoutEntry q.layout = t.layoutEntry q.layout ∧ t'.curveEntry q.curve = t.curveEntry q.curve := by
  obtain ⟨_, hp, hw⟩ := judgeTwrite_taken h
  obtain ⟨h0, h1, h2, h3⟩ := writeEntry_other hw
  simp only [Tables.pinned, hq] at hp
  refine ⟨h0, (h3 _).resolve_left ?_, (h1 _).resolve_left ?_, (h2 _).resolve_left ?_⟩ <;>
    (rintro ⟨rfl, rfl⟩; simp at hp)

end Sys2Proof.Machine
end

