-- ==== Sys2Proof/Tests/Slice0.lean ====
section
/-!
SUPPORT. The author's tests: the spec's worked examples, each with its place, and for every statement with hypotheses a
witness: a concrete state and operands that meet them.
-/

namespace Sys2Proof.Tests

open Sys2Proof.Machine

/-! ### Well-formedness and decoding -/

/-- R137: a received line without its line feed is no event; neither is one with a line feed inside. -/
theorem test_ill_formed_lines_are_refused :
    (Instr.receivedLineIgnored (wordDone ++ [space, 52])).wellFormed = false
      ∧ (Instr.receivedLineIgnored [lineFeed, 52, lineFeed]).wellFormed = false
      ∧ (Instr.receivedLineIgnored (wordDone ++ [space, 52, lineFeed])).wellFormed = true := by decide

/-- No row of the table gives bits. -/
theorem test_no_word_spells_a_command : decodeTableWord 8 1 = none := by decide

/-! ### States the tests and witnesses use -/

/-- The layout of spec/01's example: 3 rows, 4 columns, a title row, 1 index cell. -/
def lay : Layout :=
  { rows := 3, columns := 4, wc := 64, hc := 64, originX := 100, originY := 200, pitchX := 10, pitchY := 20
    titleRow := true, indexCells := 1, fillOrder := .column }

/-- A profile within R163's ranges. -/
def prof : Profile :=
  { layout := 0, curve := 0, linePeriod := 4200, pulseMax := 4100, voidPulse := 600, fillGray := 255
    alignment := .centre, holdLimit := 5, mRef := 40000, correctionOn := true, overLimit := 45000
    underLimit := 30000, averaging := 4, basis := .averaged, alertMode := .latched, doseTolerance := 20
    warmCount := 4, maxVoids := 1, indexRequired := true }

/-- Tables with layout 0, curve 0 and profile 0 valid. -/
def tabs : Tables :=
  { Tables.reset with
    layouts := { valid := true, fields := lay } :: List.replicate 7 { valid := false, fields := Layout.zero }
    curves :=
      { values := List.replicate 256 1000, written := { q0 := true, q64 := true, q128 := true, q192 := true } }
        :: List.replicate 3
          { values := List.replicate 256 0, written := { q0 := false, q64 := false, q128 := false, q192 := false } }
    profiles := { valid := true, fields := prof } :: List.replicate 7 { valid := false, fields := Profile.zero } }

/-- The pins of a fiche under profile 0. -/
def pins : Pins := { profile := 0, layout := 0, curve := 0 }

/-- A record with tag 5. -/
def rcd (k : RecordKind) (payload : List Byte) : Record := { kind := k, flags := 0, tag := 5, payload := payload }

/-- An IDLE part with the link UP, an EMPTY card and these records queued. -/
def idle (q : List Record) : State :=
  { State.reset with
    link := { Link.reset with state := .up, inbound := q }
    job := { Job.reset with state := .idle }
    tables := tabs
    transport := { Transport.reset with card := .empty, inFlight := none } }

/-- A fiche record under profile 0, its opening met. -/
def fiche : Fiche :=
  { seq := 7, openTag := 9, closeTag := none, profile := 0, layout := 0, curve := 0, openingMet := true
    outcome := none, stack := none, faultCode := .noFault, dose := 0, voidCount := 0, closed := false
    map := buildMap lay }

/-- An OPEN fiche with a READY head, the card LOADED and these records queued. -/
def opened (q : List Record) : State :=
  { idle q with
    job := { state := .opened, fiche := some fiche, fopenedDue := false, onStop := none }
    tables := { tabs with pins := some pins }
    head := { Head.reset with state := .ready }
    transport := { Transport.reset with card := .loaded, inFlight := none } }

/-- A page of 8 pixels by 64 lines for cell 4. -/
def page : Context :=
  { cell := 4, key := none, w := 8, h := 64, depth := 8, d := 1, wd := 8, hd := 64, hOff := .margin 28
    vOff := .margin 0, e := 0, placed := 0, pendingLine := none, ended := false, voided := false
    flags := IntakeFlags.none }

/-- The exposure side of the page's context. -/
def expo : Exposure := exposureOf lay page

/-- The fiche with the page's cell in a state. -/
def ficheWith (st : CellState) : Fiche :=
  { fiche with map := fiche.map.set 4 { freshCell .data with state := st } }

/-- An OPEN fiche with the card at cell 4 and the engine in a state with this line driven. -/
def exposing (st : EngineState) (d : Option DrivenLine) : State :=
  { opened [] with
    job := { (opened []).job with fiche := some (ficheWith .exposing) }
    intake := { Intake.reset with state := .taking, contexts := [page] }
    engine := { Engine.reset with state := st, exposure := some expo, driven := d }
    transport := { (opened []).transport with card := .atCell, position := some 4 } }

/-! ### The spec's worked examples -/

/-- spec/01, "cell kinds and assignment order". -/
theorem test_cell_kinds : (List.range 12).map (cellKind lay)
    = [.title, .title, .title, .title, .data, .data, .data, .data, .data, .data, .data, .index] := by decide

/-- spec/01, "cell kinds and assignment order": the DATA cells down each column, and along each row. -/
theorem test_fill_orders :
    (fillOrderCells lay).filter (fun i => cellKind lay i == .data) = [4, 8, 5, 9, 6, 10, 7]
      ∧ (fillOrderCells { lay with fillOrder := .row }).filter (fun i => cellKind lay i == .data)
        = [4, 5, 6, 7, 8, 9, 10] := by decide

/-- A map with these cells in these states, the rest FREE. -/
def mapWith (exposed fault void : List Nat) : List Cell :=
  (List.range 12).map fun i => { freshCell (cellKind lay i) with
    state := if i ∈ exposed then .exposed else if i ∈ fault then .exposedFault
      else if i ∈ void then .void else .free }

/-- spec/01, "closing outcomes", fiches a to e. -/
theorem test_closing_outcomes :
    evaluateOutcome (mapWith [4, 5, 6, 7, 9, 10, 11] [] [8]) 1 prof = .complete
      ∧ evaluateOutcome (mapWith [4, 5, 6, 7, 9, 11] [] [8, 10]) 2 prof = .incomplete
      ∧ evaluateOutcome (mapWith [4, 5] [6] []) 0 prof = .incomplete
      ∧ evaluateOutcome (mapWith [] [] [4, 5, 6, 7, 8, 9, 10]) 7 prof = .empty
      ∧ evaluateOutcome (mapWith [4, 5, 6, 7, 8, 9, 10] [11] []) 0 prof = .complete := by decide

/-- spec/02, "placement": an A4 page under CENTRE, and the cropped full-size page. -/
theorem test_placement :
    placementOffset 1240 1600 .centre = .margin 180 ∧ placementOffset 1754 2000 .centre = .margin 123
      ∧ placementOffset 4096 2048 .centre = .skip 1024 ∧ placementOffset 6144 3072 .centre = .skip 1536
      ∧ placementOffset 4096 2048 .topLeft = .skip 0
      ∧ placedNumber (.skip 1536) 3072 1535 = none ∧ placedNumber (.skip 1536) 3072 4607 = some 3071
      ∧ placedNumber (.skip 1536) 3072 4608 = none := by decide

/-- spec/02, "decimation values": three ink pixels, the 8-bit block, and a block that is half gap line. -/
theorem test_decimation : decimateLines [0, 0, 9] [0, 255, 9] = [64] ∧ decimateLines [200, 201] [0, 3] = [101]
    ∧ decimateLines [255, 255] [0, 0] = [128] := by decide

/-- R46: the first pixel of a byte is its most significant bit, ink is gray 0, padding is ignored. -/
theorem test_one_bit_pixels :
    expandLine 10 1 [0x81, 0x7F] = [0, 255, 255, 255, 255, 255, 255, 0, 255, 0] := by decide

/-- spec/03, "pulse widths". -/
theorem test_pulse_widths :
    [0, 40, 3000, 3600, 3800].map (drivenWidth 4100 18204) = [0, 44, 3333, 4000, 4100]
      ∧ clampActs 4100 18204 3800 = true ∧ clampActs 4100 18204 3600 = false
      ∧ [24576, 16384, 12288].map (correctedWidth 1) = [2, 1, 1] := by decide

/-- spec/05, "correction factors". -/
theorem test_correction_factors :
    [40000, 36000, 35200, 32000, 26667, 26666, 20000, 60000, 0].map (correctionOf prof)
      = [(16384, false), (18204, false), (18618, false), (20480, false), (24576, false), (24576, true),
         (24576, true), (12288, true), (24576, true)] := by decide

/-- spec/05, "latched and transparent alert states": OVER after 45,100, then after 44,900, by mode. -/
theorem test_alert_modes : alertAfter .latched true false = true ∧ alertAfter .transparent true false = false
    ∧ alertAfter .transparent false true = true := by decide

/-- spec/04, "The frame of the hold example": a flood line of 1,600 emitters at 600 under m 36,000. -/
theorem test_flood_line_dose : lineDose (1600 * 600) 36000 = 527343 := by decide

/-- spec/07, "layout writes", writes 1 to 4, 6 and 7. -/
theorem test_layout_checks :
    let l : Layout := { lay with rows := 6, columns := 14, indexCells := 2, originX := 800, pitchX := 4600 };
    l.ok = true ∧ l.dataCells = 68
      ∧ ({ lay with rows := 16, columns := 27 } : Layout).ok = false
      ∧ ({ lay with rows := 1 } : Layout).ok = false
      ∧ ({ lay with rows := 2, columns := 3, indexCells := 3 } : Layout).ok = false
      ∧ ({ l with originX := 2000, pitchX := 4900 } : Layout).ok = false
      ∧ ({ lay with columns := 2, indexCells := 3 } : Layout).ok = false
      ∧ ({ lay with rows := 1, columns := 5, titleRow := false, indexCells := 4 } : Layout).ok = true := by decide

set_option maxRecDepth 20000 in
/-- The check value of the nine digits 1 to 9 under this check, as published outside the spec (PRESUMED, log 5). -/
theorem test_check_bytes :
    checkBytes [0x31, 0x32, 0x33, 0x34, 0x35, 0x36, 0x37, 0x38, 0x39] = [0x26, 0x39, 0xF4, 0xCB] := by decide

/-- R206: the flag bits of a FRAME, CROPPED lowest and DOSE highest. -/
theorem test_flag_bits :
    FrameFlags.word { intake := { IntakeFlags.none with cropped := true, noEnd := true }
                      engine := { EngineFlags.none with dose := true } } = 1 + 32 + 1024 := by decide

/-- R137, R138: MOVE 43 to x 11,400, y 9,400 (spec/06, "a timed-out move and a late reply") as characters. -/
theorem test_move_line : commandLine { number := 43, motion := .move 9 11400 9400 }
    = [77, 79, 86, 69, 32, 52, 51, 32, 49, 49, 52, 48, 48, 32, 57, 52, 48, 48, 10] := by decide

/-- R139: leading zeros and numbers above 255 are not readable. -/
theorem test_unreadable_numbers : readReply (wordDone ++ [space, 48, 52, lineFeed]) = none
    ∧ readReply (wordDone ++ [space, 50, 53, 54, lineFeed]) = none
    ∧ readReply (wordDone ++ [space, 48, lineFeed]) = some (.done 0) := by decide

/-- The state a command answers. -/
def after (c : Instr) (s : State) : State :=
  match exec c s with
  | .next t => t
  | .fault _ => s
  | .refused _ => s

/-- spec/08, "credits through an abort": the flush of a full queue earns 16, and ABORTED carries them. -/
theorem test_abort_credits :
    (after (.abort 3) { opened (List.replicate 16 (rcd .pband [])) with
      job := { (opened []).job with state := .opening } }).link.inTransmission.map Sending.credit = some 16 := by
  decide

/-- spec/06, "a timed-out move and a late reply": the timeout faults the job; DONE 43 is then a stray reply. -/
theorem test_timed_out_move :
    let s := after .motionTimeout { exposing .moving none with
      job := { (opened []).job with fiche := some (ficheWith .assigned) }
      transport := { (opened []).transport with
        card := .moving, inFlight := some { number := 43, motion := .move 4 11400 9400 }, timer := some 500 } };
    s.job.state = .faulted ∧ s.transport.card = .fault ∧ s.transport.faultCode = .timeout
      ∧ s.job.fiche.map (fun f => (f.outcome, f.stack, f.voidCount)) = some (some .transportFault, some .noStack, 1)
      ∧ (after (.done 43) s).transport.card = .fault := by decide

/-- spec/03, "two holds and a void": with the store empty at a line's end the engine holds, and the hold timer's expiry
floods. -/
theorem test_hold_then_void :
    let s := after .lineEnd (exposing .exposing (some (.image [] 0)));
    s.engine.state = .holding ∧ s.engine.exposure.map Exposure.linesExposed = some 1
      ∧ s.engine.exposure.map Exposure.holdCount = some 1 ∧ s.engine.holdTimer = some 5
      ∧ (after .holdTimerExpiry s).engine.state = .flooding
      ∧ (after .floodLineEnd (after .holdTimerExpiry s)).engine.exposure.map Exposure.linesFlooded = some 1 := by decide

/-- spec/05, "a warm-up", averages 8 and 9: the fourth average within the limits makes the head READY. -/
theorem test_warm_up :
    let s : State := { opened [] with
      job := { (opened []).job with state := .opening, fiche := some { fiche with openingMet := false } }
      head := { Head.reset with state := .warming, warmTimer := some 30000, warmCounter := 3, count := 3, len := some 4
                                sum := 108000 }
      transport := { (opened []).transport with card := .loading } };
    (after (.conversion 36000) s).head.state = .ready ∧ (after (.conversion 36000) s).head.c = 18204
      ∧ (after (.conversion 36000) s).head.warmTimer = none ∧ (after (.conversion 29000) s).head.warmCounter = 4 := by
  decide

/-- spec/02, "continuity under decimation", second record: line 3 is supplied as a gap line and completes its pair. -/
theorem test_gap_line :
    let c : Context := { page with h := 10, hd := 5, wd := 4, d := 2, e := 3, placed := 30
                                   vOff := .margin 29, pendingLine := some (List.replicate 8 255) };
    let s := after .bandLine { opened [rcd .pband ([0, 5, 2] ++ List.replicate 16 0)] with
      intake := { Intake.reset with
        state := .taking, contexts := [c], band := some { first := 5, count := 2, dealt := 0 } } };
    s.intake.contexts.map (fun c => (c.e, c.placed, c.flags.gap)) = [(4, 31, true)]
      ∧ s.intake.store.map PlacedLine.lineNo = [30] ∧ s.intake.band = some { first := 5, count := 2, dealt := 0 } := by
  decide

/-- spec/08, "a full report queue": the FRAME composed after TDONE waits behind it, also when a place is free. -/
theorem test_reports_keep_their_order :
    let s : State := { idle [] with link := { (idle []).link with
      reports := List.replicate 31 .credit, slots := [(.tables, .credit)] } };
    (composeSlot .engine .credit s).link.slots.map Prod.fst = [.tables, .engine]
      ∧ (after .reportPlaced (composeSlot .engine .credit s)).link.slots.map Prod.fst = [.engine] := by decide

/-- R101: a frame ended from EXPOSING whose FRAME has to wait keeps DOSE among its engine flags. -/
theorem test_dose_stays_in_frame_end :
    let s := exposing .exposing (some (.image [] 0));
    let t : State := { s with
      link := { s.link with slots := [(.tables, .credit)] }
      engine := { s.engine with exposure := some { expo with linesExposed := 63, a := 5 } } };
    (after .lineEnd t).engine.state = .frameEnd
      ∧ (after .lineEnd t).engine.exposure.map (fun x => x.flags.dose) = some true := by decide

/-! ### Witnesses: concrete states and operands that meet the statements' hypotheses -/

/-- A running part: the page's frame exposes, its image line driven, LINE_END waiting. -/
def running : State := { exposing .exposing (some (.image [] 0)) with pending := [.lineEnd] }

theorem witness_FeedLinkBoundsAreKept : LinkOk running ∧ ∃ t, step running = .next t := by
  refine ⟨?_, _, rfl⟩
  constructor <;> decide

theorem witness_TableFormIsKept : TablesOk running := by
  constructor
  case curves_ok =>
    intro c hc
    simp only [running, exposing, opened, tabs, List.mem_cons, List.mem_replicate] at hc
    rcases hc with rfl | ⟨-, rfl⟩ <;> simp only [List.length_replicate, List.mem_replicate, true_and] <;> omega
  case pins_ok => rintro p ⟨⟩; decide
  all_goals decide

theorem witness_HeadRangesAreKept : TablesOk running ∧ HeadOk running := by
  refine ⟨witness_TableFormIsKept, ?_⟩
  constructor
  case len_some => rintro n ⟨⟩
  all_goals decide

theorem witness_CardStateAgreesWithCommand : TransportOk running := by
  constructor
  case card_of_flight => rintro f ⟨⟩
  all_goals decide

theorem witness_FicheAccountsAreKept : running.ficheOk := by
  rintro f ⟨⟩
  constructor <;> decide

/-- R20: an EJECT ACCEPT in flight with outcome COMPLETE. -/
theorem witness_AcceptOnlyForCompleteFiche :
    let s : State := { opened [] with
      job := { (opened []).job with
        state := .closing, fiche := some { fiche with outcome := some .complete, stack := some .accept } }
      transport := { (opened []).transport with
        card := .ejecting, inFlight := some { number := 1, motion := .eject .accept } } };
    TransportOk s ∧ AcceptOk s ∧ acceptUnderWay s.transport = true := by
  refine ⟨?_, ?_, by decide⟩
  · constructor
    case card_of_flight => rintro f ⟨⟩; decide
    all_goals decide
  · rintro - f ⟨⟩; decide

theorem witness_IntakeBoundsAreKept : IntakeOk running := by
  constructor
  case pages_ok =>
    intro c hc
    have : c = page := by simpa [running, exposing] using hc
    subst this
    constructor <;> decide
  case orphan_ok => rintro c ⟨⟩
  case page_open => rintro c ⟨⟩ - -; decide
  all_goals decide

theorem witness_EngineStateAgreesWithExposure : EngineOk running := by
  constructor
  case hold_count => rintro x ⟨⟩; decide
  all_goals decide

theorem witness_PinnedEntriesKeepTheirContents : TablesOk running ∧ running.tables.pins = some pins ∧
    ∃ t, step running = .next t ∧ t.tables.pins = some pins :=
  ⟨witness_TableFormIsKept, by decide, _, rfl, by decide⟩

theorem witness_OutcomeIsSetOnce :
    let s : State := { opened [] with
      job := { (opened []).job with state := .ending, fiche := some { fiche with outcome := some .linkLost } } };
    s.job.fiche.map Fiche.outcome = some (some .linkLost) ∧ ∃ t, exec (.abort 3) s = .next t ∧
      t.job.fiche.isSome = true :=
  ⟨by decide, _, rfl, by decide⟩

theorem witness_StepRunsTheFrontCommand : running.pending = .lineEnd :: [] ∧ State.reset.pending = [] := by decide

/-- `idle []` with this link. -/
def linked (l : Link) : State := { idle [] with link := l }

theorem witness_EventEndCreditsThenTransmits :
    State.reset.link.state ≠ .up
      ∧ (let l : Link := { (idle []).link with
           reports := [.credit], inTransmission := some { report := .credit, credit := 1, rebase := false } };
         (linked l).link.state = .up ∧ (linked l).link.inTransmission.isSome = true)
      ∧ (let l : Link := { (idle []).link with reports := [.credit] };
         (linked l).link.inTransmission = none ∧ (linked l).link.reports = .credit :: [])
      ∧ ((linked { (idle []).link with counter := 1 }).link.windowOpen = false ∧ (idle []).link.counter = 0)
      ∧ (idle []).link.counter = 0 := by decide

theorem witness_ReportsAndRecordsMoveThroughTheQueues :
    State.reset.link.state ≠ .up
      ∧ (let s := linked { (idle []).link with reports := List.replicate 31 .credit };
         s.link.state = .up ∧ s.link.reports.length < 32 ∧ slotFree s .job = true)
      ∧ (let s := linked { (idle []).link with reports := List.replicate 32 .credit };
         s.link.state = .up ∧ 32 ≤ s.link.reports.length ∧ slotFree s .job = true)
      ∧ (let s := linked { (idle []).link with slots := [(.tables, .credit)] };
         s.link.state = .up ∧ s.link.reports.length < 32 ∧ slotFree s .engine = true ∧ s.link.slots ≠ []) := by decide

theorem witness_FrameBytesReadBack : (List.replicate 16384 (0 : Byte)).length ≤ 16384 := by
  rw [List.length_replicate]

theorem witness_TableContentsReadBack : lay.ok = true ∧ prof.ok = true ∧ isQuarterOffset 192 = true
    ∧ (List.replicate 64 8191).length = 64 ∧ (∀ v ∈ List.replicate 64 8191, v ≤ 8191)
    ∧ (255 : Nat) ≤ 255 := by decide

theorem witness_PayloadsAndRepliesReadBack :
    pheadFieldsOk 4096 6144 8 2 0 = true ∧ pheadFieldsOk 1 1 1 1 24 = true
      ∧ (Target.explicit 65535 = .explicit 65535)
      ∧ (List.replicate 16 (0 : Byte)).length = 16 * bytesPerLine 8 1
      ∧ 3 < TableSel.curve.size ∧ isQuarterOffset 192 = true ∧ 7 < TableSel.profile.size := by decide

set_option maxRecDepth 20000 in
theorem witness_DamagedFramesAreDropped :
    (idle []).link.state = .up
      ∧ checkMatches (List.replicate 12 0) = false
      ∧ (let h := headerBytes 1 0 1 5; checkMatches (h ++ checkBytes h) = true ∧ numberAt (h ++ checkBytes h) 2 2 ≠ 0)
      ∧ (let h := headerBytes 0 0 0 5; checkMatches (h ++ checkBytes h) = true ∧ numberAt (h ++ checkBytes h) 2 2 = 0
           ∧ byteAt (h ++ checkBytes h) 0 = 0)
      ∧ (let h := headerBytes 11 0 0 5; checkMatches (h ++ checkBytes h) = true
           ∧ 10 < byteAt (h ++ checkBytes h) 0)
      ∧ judgeBytes [] = .inl .linkCrc := by decide

theorem witness_DamagedFramesAreDropped_long : 16396 < (List.replicate 16397 (0 : Byte)).length := by
  rw [List.length_replicate]; decide

theorem witness_PassingFramesAreTaken :
    RecordKind.fopen ≠ .abort ∧ RecordKind.fopen ≠ .reset
      ∧ (let s := idle (List.replicate 15 (rcd .pband []));
         s.link.state = .up ∧ s.link.windowOpen = false ∧ s.link.inbound.length < 16)
      ∧ (let s := idle (List.replicate 16 (rcd .pband [])); s.link.state = .up ∧ 16 ≤ s.link.inbound.length)
      ∧ (linked { (idle []).link with windowOpen := true }).link.windowOpen = true
      ∧ slotFree (idle []) .priority = true ∧ (1 : Byte).getLsbD 0 = true ∧ (2 : Byte).getLsbD 0 = false
      ∧ ([] : List Byte).length ≤ 16384 := by decide

theorem witness_LinkTrainsAndComesUp : State.reset.link.state = .down
    ∧ (linked { Link.reset with state := .training }).link.inTransmission = none := by decide

theorem witness_LinkLossEmptiesTheLinkAndEndsTheFiche :
    (idle []).link.state ≠ .down ∧ (idle []).job.state = .idle ∧ (idle []).engine.state = .idle
      ∧ (let s := opened [];
         s.link.state ≠ .down ∧ s.job.state = .opened ∧ s.job.fiche = some fiche ∧ fiche.outcome = none
           ∧ fiche.openingMet = true ∧ s.job.fopenedDue = false ∧ s.job.onStop = none ∧ s.engine.state = .idle
           ∧ s.engine.exposure = none ∧ s.engine.driven = none ∧ s.engine.stopping = false
           ∧ s.engine.holdTimer = none ∧ s.transport.card = .loaded ∧ s.transport.inFlight = none
           ∧ s.transport.pendingReq = none) := by decide

/-- `s` with the producer's report waiting behind 31 queued ones. -/
def waiting (p : Producer) (s : State) : State :=
  { s with link := { s.link with slots := [(p, .credit)], reports := List.replicate 31 .credit } }

/-- `s` with another job state. -/
def inJob (j : JobState) (s : State) : State := { s with job := { s.job with state := j } }

/-- The page's exposure side once a stop has been told. -/
def stoppedExpo : Exposure := { expo with carried := some IntakeFlags.none }

/-- An ENDING job that waits for the engine's stop, for this purpose; a RESET FULL has discarded the record and the pins. -/
def stopping (p : StopPurpose) (st : EngineState) (d : Option DrivenLine) : State :=
  let s := inJob .ending (exposing st d)
  { s with
    job := { s.job with onStop := some p, fiche := if p = .resetFull then none else s.job.fiche }
    tables := { s.tables with pins := if p = .resetFull then none else s.tables.pins }
    intake := Intake.reset
    engine := { s.engine with stopping := true, exposure := some stoppedExpo } }

/-- The page, ended. -/
def endedPage : Context := { page with ended := true }

/-- The fiche of a FAULTED job, not closed. -/
def faultedFiche : Fiche := { fiche with outcome := some .transportFault, stack := some .noStack }

theorem witness_WaitingReportsArePlaced :
    (linked { (idle []).link with
        inTransmission := some { report := .credit, credit := 1, rebase := false } }).link.inTransmission.isSome = true
      ∧ (∀ p ∈ [Producer.tables, .status, .link, .priority],
          let s := linked { (idle []).link with slots := [(p, .credit)], reports := List.replicate 31 .credit };
          s.link.state = .up ∧ s.link.reports.length < 32 ∧ s.link.slots = (p, .credit) :: [])
      ∧ (let s : State := { exposing .frameEnd none with
           link := { (idle []).link with slots := [(.engine, .credit)], reports := List.replicate 31 .credit } };
         s.link.slots = (.engine, .credit) :: [] ∧ s.job.state = .opened ∧ s.job.fopenedDue = false
           ∧ s.job.onStop = none ∧ s.engine.state = .frameEnd ∧ s.engine.exposure = some expo
           ∧ expo.carried = none ∧ s.intake.contexts = [page] ∧ s.intake.orphan = none) := by decide

/-- The engine's slot with a STAGED context behind (in OPEN and CLOSING), the last frame of a CLOSING job, an ENDING job that
waits for the stop (its card at rest and on the way), and a FAULTED one that waits for FCLOSED. -/
theorem witness_WaitingReportsArePlaced_engine :
    (∀ j ∈ [JobState.opened, .closing],
      let s : State := { waiting .engine (inJob j (exposing .frameEnd none)) with
        intake := { Intake.reset with contexts := [page, { page with cell := 5 }] } };
      s.link.state = .up ∧ s.link.reports.length < 32 ∧ s.link.slots = (.engine, .credit) :: []
        ∧ s.engine.state = .frameEnd ∧ s.engine.exposure = some expo ∧ s.job.fiche = some (ficheWith .exposing)
        ∧ s.job.fopenedDue = false ∧ s.job.state = j ∧ fiche.outcome = none ∧ s.job.onStop = none
        ∧ fiche.openingMet = true ∧ expo.carried = none
        ∧ s.intake.contexts = page :: { page with cell := 5 } :: [] ∧ s.transport.card = .atCell
        ∧ s.transport.inFlight = none ∧ s.transport.pendingReq = none)
      ∧ (let s : State := { waiting .engine (inJob .closing (exposing .frameEnd none)) with
           intake := { Intake.reset with contexts := [endedPage] } };
         s.job.state = .closing ∧ s.intake.contexts = [endedPage] ∧ endedPage.ended = true
           ∧ s.engine.exposure = some expo)
      ∧ (let s := waiting .engine (stopping .disposal .frameEnd none);
         s.link.slots = (.engine, .credit) :: [] ∧ s.engine.state = .frameEnd
           ∧ s.engine.exposure = some stoppedExpo ∧ s.job.fiche.isSome = true ∧ s.job.fopenedDue = false
           ∧ s.job.state = .ending ∧ s.job.onStop = some .disposal ∧ stoppedExpo.carried.isSome = true
           ∧ s.intake.contexts = [] ∧ s.transport.card = .atCell ∧ s.transport.inFlight = none
           ∧ s.transport.pendingReq = none)
      ∧ (let s : State := { inJob .faulted (stopping .disposal .frameEnd none) with
           job := { state := .faulted, fiche := some faultedFiche, fopenedDue := false, onStop := none } };
         (waiting .engine s).job.state = .faulted ∧ s.job.onStop = none ∧ faultedFiche.closed = false
           ∧ s.engine.exposure = some stoppedExpo ∧ s.engine.state = .frameEnd
           ∧ slotFree { s with link := { s.link with slots := [] } } .job = true) := by decide

/-- A FOPEN of profile n. -/
def fopenOf (n : Nat) : Record := rcd .fopen (fopenPayload n 7)

/-- `s` with the producer's holding slot occupied. -/
def blocked (p : Producer) (s : State) : State := { s with link := { s.link with slots := [(p, .credit)] } }

theorem witness_FopenIsTakenOrRefused :
    let s := idle [fopenOf 0];
    headRecord .fopen s = some (fopenOf 0) ∧ slotFree s .job = true ∧ s.job.state = .idle
      ∧ readFopen (fopenOf 0).payload = some { profile := 0, seq := 7 } ∧ s.tables.openable 0 = true
      ∧ s.transport.card = .empty ∧ s.transport.inFlight = none ∧ s.transport.pendingReq = none
      ∧ slotFree (blocked .job s) .job = false ∧ (inJob .faulted s).job.state = .faulted
      ∧ (inJob .ending s).job.state ∈ [JobState.opening, .opened, .closing, .ending]
      ∧ 7 < byteAt (fopenOf 8).payload 0 ∧ byteAt (fopenOf 7).payload 0 ≤ 7
      ∧ (rcd .fopen []).payload.length ≠ 5 ∧ s.tables.openable 7 = false
      ∧ { s.transport with card := .loaded }.card ≠ .empty := by decide

theorem witness_CellKindsAndCellChoice :
    lay.ok = true ∧ 11 < lay.rows * lay.columns ∧ lay.fillOrder = .column
      ∧ ({ lay with fillOrder := .row } : Layout).fillOrder = .row
      ∧ (let m := mapWith [4] [] [];
         fillOrderCells lay = [0, 4] ++ 8 :: [1, 5, 9, 2, 6, 10, 3, 7, 11]
           ∧ (∀ j ∈ [0, 4], isFreeData m j = false) ∧ isFreeData m 8 = true ∧ m.length ≤ 12
           ∧ (m[4]?.map Cell.state) = some .exposed ∧ (m[0]?.map Cell.state) = some .free)
      ∧ (∀ i ∈ fillOrderCells lay, isFreeData (mapWith [4, 5, 6, 7, 8, 9, 10] [] []) i = false) := by decide

/-- An OPENING fiche with LOAD 1 in flight. -/
def loading (e : Engine) : State :=
  { opened [] with
    job := { (opened []).job with state := .opening, fiche := some { fiche with openingMet := false } }
    engine := e
    transport := { (opened []).transport with card := .loading, inFlight := some { number := 1, motion := .load } } }

theorem witness_FcloseClosesTheFiche :
    let r := rcd .fclose [];
    headRecord .fclose (idle [r]) = some r ∧ slotFree (idle [r]) .job = true ∧ (idle [r]).job.state = .idle
      ∧ (inJob .closing (idle [r])).job.state = .closing ∧ (inJob .faulted (idle [r])).job.state = .faulted
      ∧ (let s := opened [r];
         headRecord .fclose s = some r ∧ slotFree s .job = true ∧ s.job.state = .opened
           ∧ s.job.fiche = some fiche ∧ fiche.openingMet = true ∧ fiche.outcome = none ∧ s.intake.state = .pageIdle
           ∧ s.intake.contexts = [] ∧ s.engine.state = .idle ∧ s.engine.exposure = none
           ∧ s.transport.card = .loaded ∧ s.transport.inFlight = none ∧ s.transport.pendingReq = none)
      ∧ (let s : State := { exposing .moving none with
           link := (idle [r]).link, intake := { Intake.reset with contexts := [{ page with ended := true }] } };
         headRecord .fclose s = some r ∧ s.intake.state = .pageIdle ∧ s.engine.state = .moving)
      ∧ slotFree (blocked .job (idle [r])) .job = false
      -- before the opening is met, the engine in WAIT_OPEN
      ∧ (let s : State := { loading { Engine.reset with state := .waitOpen, exposure := some expo } with
           link := (idle [r]).link };
         headRecord .fclose s = some r ∧ slotFree s .job = true ∧ s.job.state = .opening
           ∧ s.job.fiche = some { fiche with openingMet := false } ∧ s.job.fopenedDue = false ∧ s.job.onStop = none
           ∧ s.transport.card ≠ .loaded ∧ s.engine.state = .waitOpen) := by decide

/-- The pages an FCLOSE may find: none open, one discarded, one without a context, and one in FILL_TOP and in TAKING. -/
theorem witness_FcloseClosesTheFiche_pages :
    Sys2Proof.Clauses.pageEndedByFclose 64 Intake.reset Intake.reset
      ∧ Sys2Proof.Clauses.pageEndedByFclose 64 { Intake.reset with state := .discarding } Intake.reset
      ∧ Sys2Proof.Clauses.pageEndedByFclose 64 { Intake.reset with state := .taking, orphan := some page } Intake.reset
      ∧ ∀ st ∈ [IntakeState.fillTop, .taking],
        Sys2Proof.Clauses.pageEndedByFclose 64 { Intake.reset with state := st, contexts := [page] }
          { Intake.reset with
            state := .fillBottom
            contexts := [{ page with ended := true, flags := { IntakeFlags.none with short := true, noEnd := true } }] } := by
  refine ⟨.inl (by decide), .inr (.inl (by decide)), .inr (.inr (.inl ⟨page, by decide⟩)), fun st h => ?_⟩
  exact .inr (.inr (.inr ⟨[], page, by revert st; decide⟩))

theorem witness_OutcomeTestsInOrder :
    (∃ c ∈ mapWith [4] [] [], c.kind = .data ∧ (c.state = .exposed ∨ c.state = .exposedFault))
      ∧ prof.maxVoids < 2 ∧ 1 ≤ prof.maxVoids ∧ prof.indexRequired = true
      ∧ (∃ c ∈ mapWith [4] [] [], c.kind = .index ∧ ¬ (c.state = .exposed ∨ c.state = .exposedFault))
      ∧ (∀ c ∈ mapWith [4, 11] [] [], c.kind = .index → c.state = .exposed ∨ c.state = .exposedFault)
      ∧ ¬ (∃ c ∈ mapWith [] [] [4], c.kind = .data ∧ (c.state = .exposed ∨ c.state = .exposedFault))
      ∧ (let s := inJob .closing (opened []);
         s.job.state = .closing ∧ s.job.fiche = some fiche ∧ fiche.openingMet = true ∧ fiche.outcome = none
           ∧ s.intake.contexts = [] ∧ s.engine.state = .idle) := by decide

theorem witness_AbortIsAnswered :
    (idle []).link.state = .up ∧ slotFree (blocked .priority (idle [])) .priority = false
      ∧ slotFree (idle []) .priority = true ∧ (idle []).job.state = .idle
      ∧ (inJob .ending (idle [])).job.state = .ending ∧ (inJob .faulted (idle [])).job.state = .faulted
      ∧ (let s : State := { opened [] with
           job := { (opened []).job with state := .closing, fiche := some { fiche with outcome := some .empty } } };
         closingEjectRequested s = true)
      ∧ (let s := opened [];
         s.job.state = .opened ∧ s.job.fiche = some fiche ∧ fiche.outcome = none ∧ fiche.openingMet = true
           ∧ s.job.fopenedDue = false ∧ s.engine.state = .idle ∧ s.engine.exposure = none
           ∧ s.transport.card = .loaded ∧ s.transport.inFlight = none ∧ s.transport.pendingReq = none) := by decide

/-- The card leaves by this EJECT, its closing step made. -/
def ejecting (o : FicheOutcome) (st : EjectStack) : State :=
  { opened [] with
    job := { (opened []).job with state := .closing, fiche := some { fiche with outcome := some o } }
    transport := { (opened []).transport with
      card := .ejecting, inFlight := some { number := 1, motion := .eject st } } }

/-- A stored line of this cell. -/
def storedLineOf (cell n : Nat) : PlacedLine := { cell := cell, lineNo := n, grays := List.replicate 64 255 }

/-- The MOVE to cell 4 in flight with this line store. -/
def arriving (store : List PlacedLine) : State :=
  { exposing .moving none with
    job := { (opened []).job with fiche := some (ficheWith .assigned) }
    intake := { Intake.reset with state := .taking, contexts := [page], store := store }
    transport := { (opened []).transport with
      card := .moving, inFlight := some { number := 1, motion := .move 4 expo.x expo.y } } }

/-- A card and its motion command of this kind in flight, with this request pending. -/
def flying (card : CardState) (m : Motion) (r : Option Motion) (s : State) : State :=
  { s with transport := { s.transport with
      card := card, inFlight := some { number := 1, motion := m }, pendingReq := r, position := none } }

/-- A RESET FULL finds the engine IDLE, with a command in flight and without; in every state without a line; and with an image
line and a flood line driven, its flags carried already or not. -/
theorem witness_ResetFullClearsAndReports :
    (∀ s ∈ [opened [], flying .moving (.move 4 0 0) (some (.eject .reject)) (inJob .ending (opened [])),
        flying .homing .home none (inJob .ending (opened [])),
        flying .homing .home (some .home) (inJob .ending (opened []))],
      s.link.state = .up ∧ s.engine.state = .idle ∧ s.engine.exposure = none
        ∧ (s.transport.inFlight = none → s.transport.pendingReq = none))
      ∧ (∀ s ∈ [flying .loading .load none (exposing .waitOpen none), arriving [], exposing .frameEnd none,
            exposing .holding none, exposing .exposing none, exposing .flooding none],
          s.link.state = .up ∧ s.engine.exposure = some expo ∧ s.transport.pendingReq = none
            ∧ (s.engine.state = .waitOpen ∨ s.engine.state = .moving ∨ s.engine.state = .frameEnd
              ∨ s.engine.state = .holding
              ∨ ((s.engine.state = .exposing ∨ s.engine.state = .flooding) ∧ s.engine.driven = none)))
      ∧ (∀ s ∈ [running, exposing .flooding (some .flood)],
          s.link.state = .up ∧ s.tables.pins = some pins ∧ (s.engine.state = .exposing ∨ s.engine.state = .flooding)
            ∧ s.engine.exposure = some expo ∧ s.engine.driven.isSome = true ∧ expo.carried = none
            ∧ s.intake.contexts = page :: [] ∧ s.transport.pendingReq = none)
      ∧ (let s := stopping .disposal .exposing (some (.image [] 0));
         s.link.state = .up ∧ s.tables.pins = some pins ∧ s.engine.state = .exposing
           ∧ s.engine.exposure = some stoppedExpo ∧ s.engine.driven.isSome = true
           ∧ stoppedExpo.carried.isSome = true ∧ s.transport.pendingReq = none) := by decide

theorem witness_ResetSoftKeepsTablesAndHead :
    (let s := idle [];
     s.link.state = .up ∧ s.engine.state = .idle ∧ s.engine.exposure = none ∧ s.job.fopenedDue = false
       ∧ s.job.onStop = none ∧ s.transport.pendingReq = none ∧ s.transport.inFlight = none ∧ s.job.state = .idle)
      ∧ (let g : Fiche := { fiche with outcome := some .transportFault, closed := true };
         let s : State := { opened [] with job := { (opened []).job with state := .faulted, fiche := some g } };
         s.job.state = .faulted ∧ s.job.fiche = some g ∧ g.closed = true)
      ∧ (let s := opened [];
         s.job.state = .opened ∧ s.job.fiche = some fiche ∧ fiche.outcome = none ∧ fiche.openingMet = true
           ∧ s.transport.card = .loaded)
      -- an ENDING job whose EJECT is on the way, and one whose EJECT waits behind a MOVE
      ∧ (∀ s ∈ [flying .ejecting (.eject .reject) none (inJob .ending (opened [])),
            flying .moving (.move 4 0 0) (some (.eject .reject)) (inJob .ending (opened []))],
          s.link.state = .up ∧ s.engine.state = .idle ∧ s.engine.exposure = none ∧ s.job.fopenedDue = false
            ∧ s.job.onStop = none ∧ s.job.state = .ending ∧ s.job.fiche = some fiche
            ∧ s.transport.inFlight.isSome = true
            ∧ s.transport.pendingReq ∈ [none, some (.eject .reject)]) := by decide

theorem witness_LoadDoneOpensTheFiche :
    (let s := loading Engine.reset;
     s.transport.inFlight = some { number := 1, motion := .load } ∧ s.transport.pendingReq = none
       ∧ s.job.state = .opening ∧ s.job.fiche = some { fiche with openingMet := false } ∧ fiche.outcome = none
       ∧ s.job.fopenedDue = false ∧ s.job.onStop = none ∧ slotFree s .job = true ∧ s.head.state = .ready
       ∧ s.engine.state = .idle ∧ s.engine.exposure = none)
      ∧ (let s := loading { Engine.reset with state := .waitOpen, exposure := some expo };
         s.engine.state = .waitOpen ∧ s.engine.exposure = some expo)
      ∧ (let s := inJob .closing (loading Engine.reset);
         s.job.state = .closing ∧ s.intake.contexts = [] ∧ s.engine.state = .idle) := by decide

/-- The job controller's slot: a FOPENED that waited (in OPENING with the engine IDLE, MOVING and with a line to start, in
CLOSING), and the FCLOSED of a closing EJECT, of a NO_STOCK (with and without a band, the engine IDLE and in WAIT_OPEN), of an
ENDING and of a FAULTED job. -/
theorem witness_WaitingReportsArePlaced_job :
    (let due (j : JobState) (s : State) : State :=
       waiting .job { s with job := { s.job with state := j, fopenedDue := true } };
     (∀ s ∈ [due .opening (opened []), due .opening (arriving []), due .closing (arriving [])],
       s.link.state = .up ∧ s.link.reports.length < 32 ∧ s.link.slots = (.job, .credit) :: []
         ∧ s.job.onStop = none ∧ slotFree { s with link := { s.link with slots := [] } } .job = true
         ∧ s.job.fopenedDue = true ∧ (s.job.fiche.map Fiche.openingMet) = some true
         ∧ (s.job.fiche.map Fiche.outcome) = some none
         ∧ ((s.job.state = .opening ∧ (s.engine.state = .idle ∨ s.engine.state = .moving))
           ∨ (s.job.state = .closing ∧ s.engine.state = .moving)))
       ∧ (let s : State := { due .opening (exposing .exposing none) with
            intake := { Intake.reset with contexts := [page], store := [storedLineOf 4 0] } };
          s.job.state = .opening ∧ s.engine.state = .exposing ∧ s.engine.exposure = some expo
            ∧ s.engine.driven = none ∧ s.engine.stopping = false ∧ s.head.state = .ready
            ∧ s.transport.card = .atCell ∧ s.transport.position = some expo.cell
            ∧ s.intake.store = storedLineOf 4 0 :: [] ∧ (storedLineOf 4 0).cell = expo.cell))
      ∧ (let s : State := waiting .job { ejecting .empty .reject with
           transport := { Transport.reset with card := .empty, inFlight := none } };
         s.job.fopenedDue = false ∧ s.job.state = .closing ∧ s.transport.card = .empty
           ∧ s.transport.inFlight = none ∧ s.transport.pendingReq = none)
      ∧ (∀ j ∈ [JobState.opening, .closing], ∀ e ∈ [EngineState.idle, .waitOpen],
          ∀ b ∈ [none, some { first := 0, count := 1, dealt := 0 }],
          let s : State := { waiting .job (opened [rcd .pband []]) with
            job := { (opened []).job with state := j, fiche := some { fiche with outcome := some .noStock } }
            engine := { Engine.reset with state := e }, intake := { Intake.reset with band := b } };
          s.job.state = j ∧ s.engine.state = e ∧ s.intake.band = b ∧ s.job.fopenedDue = false
            ∧ slotFree { s with link := { s.link with slots := [] } } .job = true)
      ∧ (let s : State := waiting .job { inJob .ending (ejecting .aborted .reject) with
           transport := { Transport.reset with card := .empty, inFlight := none } };
         s.job.state = .ending ∧ s.engine.state = .idle ∧ s.transport.card = .empty
           ∧ s.transport.inFlight = none ∧ s.transport.pendingReq = none ∧ fiche.closed = false)
      ∧ (let s : State := waiting .job { opened [] with
           job := { (opened []).job with state := .faulted, fiche := some faultedFiche } };
         s.job.state = .faulted ∧ s.engine.state = .idle ∧ faultedFiche.closed = false) := by decide

/-- What an ABORT, a RESET SOFT and a link loss have made of the link and page intake when the engine is told to stop. -/
def stopBase (c : Instr) (s : State) : State :=
  match c with
  | .abort tag => { s with
      link := { (composeSlot .priority (.aborted { tag := tag, result := .taken, seq := s.ficheSeq }) s).link with
        inbound := [], counter := min 16 (s.link.counter + s.link.inbound.length) }
      intake := Intake.reset }
  | .resetSoft tag => { s with
      link := { s.link with
        inbound := [], counter := min 16 (s.link.counter + s.link.inbound.length), windowOpen := true, slots := []
        reports := [.resetDone { tag := tag, option := .soft, priorSeq := s.ficheSeq, ficheEnded := true }] }
      intake := Intake.reset
      head := { s.head with overActive := false, underActive := false } }
  | _ => { s with
      link := { Link.reset with state := .training, overflow := s.link.overflow, lastRefusal := s.link.lastRefusal }
      intake := Intake.reset }

/-- The states such a cause finds: the engine IDLE, in WAIT_OPEN, MOVING, with a line driven, HOLDING, and in FRAME_END. -/
def stoppable : List State :=
  [opened [], loading { Engine.reset with state := .waitOpen, exposure := some expo }, arriving [],
    exposing .exposing (some (.image [] 0)), exposing .flooding (some .flood), exposing .holding none,
    exposing .frameEnd none]

/-- The three causes in each of these states. -/
theorem witness_TerminatingCausesStopTheEngine : ∀ s ∈ stoppable,
    Sys2Proof.Clauses.endsTheFiche (.abort 3) .aborted s (stopBase (.abort 3) s)
      ∧ Sys2Proof.Clauses.endsTheFiche (.resetSoft 3) .reset s (stopBase (.resetSoft 3) s)
      ∧ Sys2Proof.Clauses.endsTheFiche (.lossOfSignal .alignmentLost) .linkLost s
        (stopBase (.lossOfSignal .alignmentLost) s) := by
  have up : ∀ s ∈ stoppable, s.link.state = .up ∧ slotFree s .priority = true := by decide
  intro s hs
  obtain ⟨h, h1⟩ := up s hs
  exact ⟨.inl ⟨3, rfl, rfl, h, h1, rfl⟩, .inr (.inl ⟨3, rfl, rfl, h, rfl⟩),
    .inr (.inr ⟨.alignmentLost, rfl, rfl, by rw [h]; decide, rfl⟩)⟩

theorem witness_TerminatingCausesStopTheEngine_states :
    (∀ s ∈ stoppable,
      s.link.state = .up ∧ slotFree s .priority = true
        ∧ s.job.state ∈ [JobState.opening, .opened, .closing] ∧ (s.job.fiche.map Fiche.outcome) = some none
        ∧ s.job.fopenedDue = false ∧ s.transport.card ∈ [CardState.loading, .loaded, .atCell, .moving]
        ∧ (s.transport.inFlight = none ↔ (s.transport.card = .loaded ∨ s.transport.card = .atCell))
        ∧ s.transport.pendingReq = none ∧ s.engine.stopping = false)
      ∧ (let s := exposing .holding none;
         s.engine.exposure = some expo ∧ expo.carried = none ∧ s.intake.contexts = page :: []
           ∧ (ficheWith .exposing).map[expo.cell]?.map Cell.state = some .exposing)
      -- the DONE of a LOAD that an ENDING has waited for
      ∧ (let s := inJob .ending (loading Engine.reset);
         s.transport.inFlight = some { number := 1, motion := .load } ∧ s.job.state = .ending
           ∧ s.job.fiche.isSome = true ∧ s.job.fopenedDue = false ∧ s.job.onStop = none
           ∧ s.transport.pendingReq = none)
      -- a cleared engine slot, a context behind and a CLOSING job without one
      ∧ (let s : State := { exposing .frameEnd none with
           intake := { Intake.reset with contexts := [page, { page with cell := 5 }] } };
         s.engine.state = .frameEnd ∧ s.engine.exposure = some expo ∧ expo.carried = none
           ∧ s.intake.contexts = page :: { page with cell := 5 } :: [] ∧ s.job.state = .opened
           ∧ fiche.openingMet = true ∧ s.job.onStop = none ∧ s.transport.card = .atCell
           ∧ s.transport.inFlight = none)
      ∧ (inJob .closing (exposing .frameEnd none)).job.state = .closing := by decide

/-- A cleared engine slot of an OPEN job with no context behind; and an ENDING job that waits for a line's end, a flood line's
end and the engine's slot. -/
theorem witness_TerminatingCausesStopTheEngine_slot :
    (let s := exposing .frameEnd none;
     s.link.state = .up ∧ s.engine.state = .frameEnd ∧ s.engine.exposure = some expo ∧ expo.carried = none
       ∧ s.intake.contexts = page :: [] ∧ s.job.fiche = some (ficheWith .exposing) ∧ s.job.fopenedDue = false
       ∧ s.job.state = .opened ∧ s.job.onStop = none ∧ s.transport.card = .atCell
       ∧ s.transport.inFlight = none ∧ s.transport.pendingReq = none)
      ∧ ∀ s ∈ [stopping .disposal .exposing (some (.image [] 0)), stopping .disposal .flooding (some .flood),
            stopping .disposal .frameEnd none],
          s.link.state = .up ∧ s.job.state = .ending ∧ s.job.fiche = some (ficheWith .exposing)
            ∧ s.job.fopenedDue = false ∧ s.job.onStop = some .disposal ∧ s.engine.exposure = some stoppedExpo
            ∧ stoppedExpo.carried.isSome = true ∧ s.intake.contexts = [] ∧ s.transport.card = .atCell
            ∧ s.transport.inFlight = none ∧ s.transport.pendingReq = none
            ∧ (s.engine.driven.isSome = true ∨ s.engine.state = .frameEnd) := by decide

theorem witness_RepliesReturnTheJobToIdle :
    (let s := ejecting .empty .reject;
     s.job.fopenedDue = false ∧ s.job.onStop = none ∧ slotFree s .job = true ∧ s.transport.pendingReq = none
       ∧ s.engine.state = .idle ∧ s.engine.exposure = none
       ∧ s.transport.inFlight = some { number := 1, motion := .eject .reject } ∧ s.job.state = .closing
       ∧ fiche.openingMet = true
       ∧ some FicheOutcome.empty ∈ [some FicheOutcome.complete, some .incomplete, some .empty])
      ∧ (let s := loading Engine.reset;
         s.transport.inFlight = some { number := 1, motion := .load } ∧ s.job.state = .opening
           ∧ s.intake.band = none ∧ s.engine.holdTimer = none ∧ s.engine.driven = none
           ∧ s.engine.stopping = false ∧ s.engine.state = .idle ∧ slotFree s .job = true)
      ∧ (let s := State.reset;
         s.transport.inFlight = some { number := 0, motion := .home } ∧ s.transport.pendingReq = none
           ∧ s.job.fopenedDue = false ∧ s.job.onStop = none ∧ s.engine.state = .idle ∧ s.engine.exposure = none
           ∧ s.job.state = .ending ∧ s.job.fiche = none)
      ∧ (inJob .faulted State.reset).job.state = .faulted
      -- the end of ENDING: an EJECT's DONE with the stack set, and a LOAD's NO_STOCK with none
      ∧ (let s := inJob .ending (ejecting .aborted .reject);
         s.transport.inFlight = some { number := 1, motion := .eject .reject } ∧ s.job.state = .ending
           ∧ s.job.fiche = some { fiche with outcome := some .aborted } ∧ fiche.closed = false
           ∧ s.job.fopenedDue = false ∧ s.job.onStop = none ∧ slotFree s .job = true ∧ s.engine.state = .idle
           ∧ s.engine.exposure = none ∧ s.transport.pendingReq = none)
      ∧ (let s := inJob .ending (loading Engine.reset);
         s.transport.inFlight = some { number := 1, motion := .load } ∧ s.job.state = .ending)
      ∧ ({ fiche with closed := true } : Fiche).closed = true := by decide

/-- The DONE of the HOME after a RESET SOFT of a FAULTED job; NO_STOCK in OPENING and in CLOSING, the engine IDLE and in
WAIT_OPEN, with and without a band in hand. -/
theorem witness_RepliesReturnTheJobToIdle_states :
    (let s := flying .homing .home none { opened [] with
           job := { (opened []).job with state := .ending, fiche := some faultedFiche } };
         s.transport.inFlight = some { number := 1, motion := .home } ∧ s.transport.pendingReq = none
           ∧ s.job.state = .ending ∧ s.job.fiche = some faultedFiche ∧ s.job.fopenedDue = false
           ∧ s.job.onStop = none ∧ s.engine.state = .idle ∧ s.engine.exposure = none
           ∧ faultedFiche.closed = false ∧ slotFree s .job = true)
      ∧ (∀ j ∈ [JobState.opening, .closing],
          ∀ e ∈ [Engine.reset, { Engine.reset with state := .waitOpen, exposure := some expo }],
          ∀ b ∈ [none, some { first := 0, count := 1, dealt := 0 }],
          let s : State := { inJob j (loading e) with
            link := (idle [rcd .pband []]).link, intake := { Intake.reset with band := b } };
          s.transport.inFlight = some { number := 1, motion := .load } ∧ s.transport.pendingReq = none
            ∧ s.job.state = j ∧ s.job.fiche = some { fiche with openingMet := false } ∧ fiche.outcome = none
            ∧ s.job.fopenedDue = false ∧ s.job.onStop = none ∧ slotFree s .job = true
            ∧ s.engine.state = e.state ∧ s.intake.band = b) := by decide

/-- A fault in every job state but IDLE, with and without a record, with every pending request, a WAIT_OPEN engine, a band in
hand, a closed record and an occupied slot. -/
theorem witness_TransportFaultFaultsTheJob_states :
    (∀ s ∈ [loading Engine.reset, ejecting .complete .accept, inJob .ending (ejecting .aborted .reject),
        inJob .faulted (ejecting .aborted .reject), blocked .job (ejecting .empty .reject)],
      s.transport.inFlight.isSome = true ∧ s.job.state ≠ .idle ∧ s.job.fopenedDue = false ∧ s.job.onStop = none
        ∧ s.job.fiche.isSome = true ∧ s.engine.state = .idle ∧ s.engine.exposure = none)
      ∧ (∀ r ∈ [none, some (.eject .reject), some .home],
          (flying .moving (.move 4 0 0) r (inJob .ending (opened []))).transport.pendingReq = r)
      ∧ (let s := State.reset;
         s.transport.inFlight = some { number := 0, motion := .home } ∧ s.job.state = .ending ∧ s.job.fiche = none
           ∧ s.engine.state = .idle ∧ s.engine.exposure = none ∧ s.job.fopenedDue = false ∧ s.job.onStop = none)
      ∧ (let s : State := { loading { Engine.reset with state := .waitOpen, exposure := some expo } with
           link := (idle [rcd .pband []]).link
           intake := { Intake.reset with band := some { first := 0, count := 1, dealt := 0 } } };
         s.engine.state = .waitOpen ∧ s.job.state = .opening ∧ s.intake.band.isSome = true)
      ∧ (let s := flying .homing .home none { opened [] with
           job := { (opened []).job with state := .ending, fiche := some { faultedFiche with closed := true } } };
         s.job.state = .ending ∧ s.transport.inFlight = some { number := 1, motion := .home }) := by decide

theorem witness_TransportFaultFaultsTheJob :
    let s : State := { opened [] with transport := { (opened []).transport with
      card := .ejecting, inFlight := some { number := 1, motion := .eject .reject }, timer := some 4000 } };
    s.transport.inFlight = some { number := 1, motion := .eject .reject } ∧ s.transport.timer.isSome = true
      ∧ s.transport.pendingReq = none ∧ s.tables.unit.alertReports = true ∧ s.job.state = .opened
      ∧ s.job.fiche = some fiche ∧ fiche.closed = false ∧ s.job.fopenedDue = false ∧ s.job.onStop = none
      ∧ slotFree s .job = true ∧ s.intake.band = none ∧ s.engine.state = .idle ∧ s.engine.exposure = none
      ∧ ({ tabs.unit with alertReports := false } : UnitSettings).alertReports = false
      ∧ (let s := arriving [];
         s.transport.inFlight = some { number := 1, motion := .move 4 expo.x expo.y } ∧ s.transport.pendingReq = none
           ∧ s.job.state = .opened ∧ s.job.fiche = some (ficheWith .assigned) ∧ slotFree s .job = true
           ∧ s.intake.band = none ∧ s.engine.state = .moving ∧ s.engine.exposure = some expo ∧ expo.carried = none
           ∧ expo.mMin = none ∧ expo.mMax = none ∧ s.intake.contexts = page :: []
           ∧ (ficheWith .assigned).map[expo.cell]?.map Cell.state = some .assigned) := by
  decide

/-- A PHEAD for cell 4 without a key: W 8, H 64, depth 8, d 1. -/
def pheadRecord (t : Target) : Record :=
  rcd .phead (pheadPayload { target := t, w := 8, h := 64, depth := 8, d := 1, key := none })

theorem witness_PageRecordsAreJudgedByJobState :
    (∀ k ∈ [RecordKind.phead, .pband, .pend], ∀ j ∈ [JobState.idle, .closing, .ending, .faulted],
      let s := inJob j (idle [rcd k []]);
      headRecord k s = some (rcd k []) ∧ slotFree s .link = true ∧ s.job.state = j ∧ s.intake.pheadChecked = false
        ∧ s.intake.band = none ∧ s.intake.state = .pageIdle ∧ slotFree (blocked .link s) .link = false)
      ∧ (let s : State := { idle [rcd .phead []] with intake := { Intake.reset with pheadChecked := true } };
         headRecord .phead s = some (rcd .phead []) ∧ s.intake.pheadChecked = true ∧ s.intake.state = .pageIdle
           ∧ s.intake.contexts.length < 2 ∧ slotFree s .link = true ∧ s.job.state = .idle) := by
  decide

/-- An OPEN job at this record with page intake so. -/
def paged (r : Record) (i : Intake) : State := { opened [r] with intake := i }

theorem witness_PheadIsCheckedOnce :
    let r := pheadRecord .next;
    headRecord .phead (opened [r]) = some r ∧ slotFree (opened [r]) .link = true
      ∧ (opened [r]).intake.pheadChecked = false ∧ (opened [r]).job.state = .opened
      ∧ readPhead (rcd .phead []).payload = none
      ∧ readPhead r.payload = some { target := .next, w := 8, h := 64, depth := 8, d := 1, key := none }
      ∧ (opened [r]).intake.state = .pageIdle
      ∧ (paged r { Intake.reset with state := .discarding }).intake.state = .discarding
      ∧ (let s := paged r { Intake.reset with state := .taking, contexts := [page] };
         s.intake.state = .taking ∧ s.intake.orphan = none ∧ s.intake.contexts = [] ++ [page] ∧ page.voided = false)
      ∧ (paged r { Intake.reset with state := .taking, orphan := some page }).intake.orphan = some page
      ∧ (paged r { Intake.reset with pheadChecked := true }).intake.pheadChecked = true := by decide

theorem witness_PendEndsThePage :
    let r := rcd .pend [];
    headRecord .pend (opened [r]) = some r ∧ slotFree (opened [r]) .link = true
      ∧ (opened [r]).job.state = .opened ∧ (opened [r]).intake.state = .pageIdle
      ∧ (paged r { Intake.reset with state := .discarding }).intake.state = .discarding
      ∧ (let s := paged r { Intake.reset with state := .taking, contexts := [page] };
         s.intake.state = .taking ∧ s.intake.orphan = none ∧ s.intake.contexts = [] ++ [page] ∧ page.voided = false)
      ∧ (paged r { Intake.reset with state := .taking, orphan := some page }).intake.orphan = some page
      ∧ (paged r { Intake.reset with state := .fillTop, contexts := [page] }).intake.state = .fillTop := by decide

theorem witness_PheadTakeCreatesAndAdmitsTheContext :
    (∀ t ∈ [Target.next, .explicit 12, .explicit 11],
      let r := pheadRecord t;
      let s := paged r { Intake.reset with pheadChecked := true };
      headRecord .phead s = some r ∧ slotFree s .link = true ∧ s.intake.pheadChecked = true
        ∧ s.intake.state = .pageIdle ∧ s.intake.contexts.length < 2 ∧ s.job.state = .opened
        ∧ readPhead r.payload = some { target := t, w := 8, h := 64, depth := 8, d := 1, key := none }
        ∧ s.job.fiche = some fiche)
      ∧ chooseCell (opened []).layout fiche.map (.explicit 12) = .inl .badField
      ∧ chooseCell (opened []).layout fiche.map .next = .inr 4 ∧ (fiche.map[4]?).isSome = true
      ∧ (let s := paged (pheadRecord .next) { Intake.reset with contexts := [page] };
         s.engine.state = .idle ∧ s.intake.contexts = page :: [] ∧ openingMet s = true
           ∧ s.transport.card = .loaded ∧ s.transport.inFlight = none ∧ s.transport.pendingReq = none)
      ∧ openingMet (loading Engine.reset) = false := by decide

set_option maxRecDepth 20000 in
theorem witness_PbandIsExamined :
    let r := rcd .pband (pbandPayload 0 16 (List.replicate 128 0));
    headRecord .pband (opened [r]) = some r ∧ slotFree (opened [r]) .link = true
      ∧ (opened [r]).intake.band = none ∧ (opened [r]).job.state = .opened
      ∧ (opened [r]).intake.state = .pageIdle
      ∧ (paged r { Intake.reset with state := .discarding }).intake.state = .discarding
      ∧ (paged r { Intake.reset with state := .taking, contexts := [page] }).intake.page = some page
      ∧ (rcd .pband [0, 0]).payload.length < 3 ∧ byteAt [0, 0, 0] 2 = 0 ∧ 16 < byteAt [0, 0, 17] 2
      ∧ byteAt r.payload 2 = 16 ∧ r.payload.length - 3 = byteAt r.payload 2 * page.w
      ∧ (pbandPayload 0 1 []).length - 3 ≠ 1 * page.w := by decide

/-- A band of this first line and count in hand for this page. -/
def banded (c : Context) (b : Band) : State :=
  paged (rcd .pband (pbandPayload b.first b.count (List.replicate (b.count * c.w) 0)))
    { Intake.reset with state := .taking, contexts := [c], band := some b }

/-- The hypotheses BAND_LINE's statement makes of every state with this page and band, and the line number it comes to. -/
def bandReady (c : Context) (b : Band) : Bool :=
  let s := banded c b
  (headRecord .pband s).isSome && s.intake.band == some b && slotFree s .link && s.intake.state == .taking
    && s.intake.orphan == none && s.intake.contexts == [c] && !c.voided && s.intake.store.length < 8

theorem witness_BandLinesAreConsumedInOrder :
    let at2 : Band := { first := 2, count := 1, dealt := 0 };
    let at0 : Band := { first := 0, count := 2, dealt := 0 };
    -- a repeated line, a line beyond the page, the expected line, a missing line
    (let c : Context := { page with e := 3 }; bandReady c at2 = true ∧ at2.first + at2.dealt < c.e)
      ∧ (let c : Context := { page with h := 2, e := 2 };
         bandReady c at2 = true ∧ c.e = c.h ∧ c.h ≤ at2.first + at2.dealt)
      ∧ (bandReady page at0 = true ∧ at0.first + at0.dealt = page.e ∧ page.e < page.h)
      ∧ (bandReady page at2 = true ∧ page.e < at2.first + at2.dealt ∧ page.e < page.h)
      -- held, dropped as an odd last line, completing its pair
      ∧ (let c : Context := { page with d := 2 };
         bandReady c at0 = true ∧ c.d = 2 ∧ c.e % 2 = 0 ∧ c.e + 1 ≠ c.h)
      ∧ (let c : Context := { page with d := 2, h := 3, e := 2 };
         bandReady c at2 = true ∧ c.d = 2 ∧ c.e % 2 = 0 ∧ c.e + 1 = c.h)
      ∧ (let c : Context := { page with d := 2, e := 1, pendingLine := some [0] };
         bandReady c { at0 with dealt := 1 } = true ∧ c.e % 2 = 1 ∧ c.pendingLine = some [0]
           ∧ placedNumber c.vOff (banded c at0).layout.hc (c.e / 2) = some c.placed)
      -- a placed line, and a line beyond the cell, with and without a context
      ∧ (placedNumber page.vOff (banded page at0).layout.hc page.e = some page.placed ∧ page.d = 1
          ∧ page.placed < (banded page at0).layout.hc)
      ∧ (let c : Context := { page with placed := 64 };
         bandReady c at0 = true ∧ (banded c at0).layout.hc ≤ c.placed ∧ c.e < c.h)
      ∧ (let c : Context := { page with placed := 64 };
         let s : State := { banded c at0 with intake := { (banded c at0).intake with contexts := [], orphan := some c } };
         s.intake.orphan = some c ∧ (headRecord .pband s).isSome = true ∧ c.d = 1
           ∧ (banded c at0).layout.hc ≤ c.placed)
      ∧ (let c : Context := { page with placed := 64, d := 2, h := 4, hd := 2, e := 1, pendingLine := some [0] };
         c.d = 2 ∧ c.e % 2 = 1 ∧ c.pendingLine.isSome = true ∧ c.e < at2.first + at2.dealt ∧ c.e < c.h
           ∧ at0.first + at0.dealt < c.e)
      ∧ (let c : Context := { page with placed := 64, d := 2, h := 3, e := 2 }; c.e % 2 = 0 ∧ c.e + 1 = c.h)
      ∧ (let c : Context := { page with placed := 64, d := 2 }; c.e % 2 = 0 ∧ c.e + 1 ≠ c.h)
      ∧ (let c : Context := { page with placed := 64, h := 2, e := 2 };
         c.e = c.h ∧ c.h ≤ at2.first + at2.dealt) := by decide

/-- A stored line of cell 4. -/
def storedLine (n : Nat) : PlacedLine := storedLineOf 4 n

theorem witness_MarginAndFillLinesEnterTheStore :
    (∀ st ∈ [IntakeState.fillTop, .fillBottom],
      let s := paged (rcd .pend []) { Intake.reset with state := st, contexts := [page] };
      s.intake.orphan = none ∧ s.intake.contexts = [] ++ [page] ∧ s.intake.state = st ∧ s.intake.store.length < 8)
      ∧ 8 ≤ ((List.range 8).map storedLine).length
      ∧ (let c : Context := { page with vOff := .margin 2 }; c.placed + 1 < c.vOff.marginLines)
      ∧ (let c : Context := { page with vOff := .margin 1 }; c.vOff.marginLines ≤ c.placed + 1)
      ∧ page.placed + 1 < (opened []).layout.hc ∧ (opened []).layout.hc ≤ 63 + 1
      ∧ (let s := exposing .holding none;
         s.engine.state = .holding ∧ s.engine.exposure = some expo ∧ s.intake.store = [] ∧ page.cell = expo.cell
           ∧ mayDrive s expo = true ∧ s.intake.orphan = none ∧ ({ page with cell := 5 } : Context).cell ≠ expo.cell)
      ∧ (opened []).engine.state ≠ .holding := by decide

theorem witness_ImagesArePlacedInTheirCell :
    64 ≤ 64 ∧ 64 < 65 ∧ placementOffset 3 8 .centre = .margin 2 ∧ placementOffset 8 3 .centre = .skip 2 := by decide

theorem witness_PixelsBecomeDecimatedLines : ([0x81] : List Byte).length = 1 ∧ 7 < 8
    ∧ ([0x81] : List Byte)[7 / 8]? = some 0x81
    ∧ ([0, 1, 2] : List Nat).length = ([3, 4, 5] : List Nat).length ∧ 0 < ([0, 1, 2] : List Nat).length / 2
    ∧ ({ page with d := 2 } : Context).d = 2 ∧ 2 * 31 + 1 < page.h := by decide

theorem witness_ImageLineWidthsAreCorrectedAndClamped :
    (storedLine 0).grays.length ≤ 2048 ∧ 2047 < 2048 ∧ running.head.c = 16384 ∧ running.head.c ≤ 24576 := by decide

/-- `s` under a profile with hold limit 0. -/
def noHold (s : State) : State :=
  { s with tables := { s.tables with
      profiles := s.tables.profiles.set 0 { valid := true, fields := { prof with holdLimit := 0 } } } }

theorem witness_MoveDoneStartsTheFrameAtItsCell :
    (∀ store ∈ [[], [storedLine 0]],
      let s := arriving store;
      s.transport.inFlight = some { number := 1, motion := .move expo.cell expo.x expo.y }
        ∧ s.transport.pendingReq = none ∧ s.engine.state = .moving ∧ s.engine.exposure = some expo
        ∧ s.engine.stopping = false ∧ s.intake.contexts = page :: [] ∧ page.cell = expo.cell
        ∧ s.job.state = .opened ∧ s.job.fopenedDue = false ∧ s.job.onStop = none
        ∧ s.job.fiche = some (ficheWith .assigned)
        ∧ (ficheWith .assigned).map[expo.cell]?.map Cell.state = some .assigned ∧ s.head.state = .ready)
      ∧ (arriving [storedLine 0]).intake.store = storedLine 0 :: [] ∧ (storedLine 0).cell = expo.cell
      ∧ (arriving []).intake.store = [] ∧ 0 < (arriving []).profile.holdLimit
      ∧ (noHold (arriving [])).profile.holdLimit = 0 := by decide

theorem witness_framesGoOn (st : EngineState) (d : Option DrivenLine) :
    Sys2Proof.Clauses.framesGoOn (exposing st d) ∧ Sys2Proof.Clauses.framesGoOn (inJob .closing (exposing st d))
      ∧ Sys2Proof.Clauses.framesGoOn (arriving []) ∧ Sys2Proof.Clauses.framesGoOn (inJob .closing (arriving [])) :=
  ⟨⟨rfl, rfl, .inl rfl⟩, ⟨rfl, rfl, .inr ⟨rfl, _, rfl, rfl, rfl⟩⟩, ⟨rfl, rfl, .inl rfl⟩,
    ⟨rfl, rfl, .inr ⟨rfl, _, rfl, rfl, rfl⟩⟩⟩

/-- The last line of the page's frame, with `d` driven, the page ended. -/
def lastLine (j : JobState) (cs : List Context) (st : EngineState) (d : Option DrivenLine) : State :=
  let s := inJob j (exposing st d)
  { s with
    intake := { Intake.reset with contexts := cs }
    engine := { s.engine with exposure := some { expo with linesExposed := 63 } } }

/-- The last line of a frame, an image line or a flood line: in OPEN, in CLOSING with a STAGED context behind, and the last of
a CLOSING job; and a line that an ENDING job, or a RESET FULL, waits for. -/
theorem witness_LineEndAccountsTheLine_endings (st : EngineState) (d : Option DrivenLine) :
    let x : Exposure := { expo with linesExposed := 63 };
    x.linesExposed + 1 + x.linesFlooded = (lastLine .opened [endedPage] st d).layout.hc
      ∧ Sys2Proof.Clauses.framesGoOn (lastLine .opened [endedPage] st d)
      ∧ Sys2Proof.Clauses.framesGoOn (lastLine .closing [endedPage, { page with cell := 5 }] st d)
      ∧ 2 ≤ (lastLine .closing [endedPage, { page with cell := 5 }] st d).intake.contexts.length
      ∧ Sys2Proof.Clauses.framesGoOn (lastLine .closing [endedPage] st d)
      ∧ Sys2Proof.Clauses.lastOfTheFiche (lastLine .closing [endedPage] st d) x (ficheWith .exposing)
          { freshCell .data with state := .exposing }
      ∧ Sys2Proof.Clauses.stopAwaited (stopping .disposal st d) stoppedExpo (ficheWith .exposing)
          { freshCell .data with state := .exposing } IntakeFlags.none
      ∧ Sys2Proof.Clauses.fullResetAwaited (stopping .resetFull st d) stoppedExpo
      ∧ (stopping .disposal st d).engine.stopping = true ∧ (stopping .resetFull st d).engine.stopping = true :=
  ⟨rfl, ⟨rfl, rfl, .inl rfl⟩, ⟨rfl, rfl, .inr ⟨rfl, _, rfl, rfl, rfl⟩⟩, Nat.le_refl 2,
    ⟨rfl, rfl, .inr ⟨rfl, _, rfl, rfl, rfl⟩⟩,
    ⟨rfl, rfl, by decide, rfl, rfl, ⟨endedPage, rfl, rfl, .inl rfl⟩, .inr rfl, rfl, rfl⟩,
    ⟨rfl, rfl, rfl, rfl, by decide, rfl, rfl, rfl, .inr rfl, rfl, rfl⟩,
    ⟨rfl, rfl, rfl, rfl, rfl, rfl, rfl, rfl⟩, rfl, rfl⟩

theorem witness_LineEndAccountsTheLine :
    let s := running;
    s.engine.state = .exposing ∧ s.engine.exposure = some expo ∧ s.engine.driven = some (.image [] 0)
      ∧ s.engine.stopping = false ∧ s.job.state = .opened ∧ s.job.fopenedDue = false ∧ s.job.onStop = none
      ∧ expo.linesExposed + 1 + expo.linesFlooded ≠ s.layout.hc ∧ mayDrive s expo = true
      ∧ s.intake.store = [] ∧ 0 < s.profile.holdLimit ∧ (storedLine 1).cell = expo.cell
      ∧ ({ expo with linesExposed := 63 } : Exposure).linesExposed + 1 + expo.linesFlooded = s.layout.hc
      ∧ ({ s.engine with stopping := true } : Engine).stopping = true
      ∧ s.job.fiche = some (ficheWith .exposing) ∧ (noHold s).profile.holdLimit = 0 := by decide

theorem witness_FloodLineEndAccountsTheLine :
    let s := exposing .flooding (some .flood);
    s.engine.state = .flooding ∧ s.engine.exposure = some expo ∧ s.engine.driven = some .flood
      ∧ s.engine.stopping = false ∧ s.job.state = .opened ∧ s.job.fopenedDue = false ∧ s.job.onStop = none
      ∧ expo.linesExposed + (expo.linesFlooded + 1) ≠ s.layout.hc ∧ mayDrive s expo = true
      ∧ expo.linesExposed + (({ expo with linesFlooded := 63 } : Exposure).linesFlooded + 1) = s.layout.hc
      ∧ ({ s.engine with stopping := true } : Engine).stopping = true ∧ s.job.fiche = some (ficheWith .exposing) := by
  decide

theorem witness_HoldExpiryVoidsTheFrame :
    let s : State := { exposing .holding none with engine := { (exposing .holding none).engine with
      holdTimer := some 5 } };
    s.engine.state = .holding ∧ s.engine.holdTimer.isSome = true ∧ s.engine.exposure = some expo
      ∧ s.intake.contexts = [page] ∧ mayDrive s expo = true ∧ s.intake.band = none
      ∧ (banded page { first := 0, count := 1, dealt := 0 }).intake.band.isSome = true
      -- a STAGED context behind the voided one
      ∧ (let s : State := { s with intake := { s.intake with contexts := [page, { page with cell := 5 }] } };
         s.intake.contexts = page :: [{ page with cell := 5 }] ∧ [{ page with cell := 5 }] ≠ []) := by decide

theorem witness_FrameResultsAreRecordedAndReported :
    let s := running;
    s.job.fiche = some (ficheWith .exposing)
      ∧ (ficheWith .exposing).map[expo.cell]?.map Cell.state = some .exposing ∧ isExposingCell s expo.cell = true := by
  decide

theorem witness_DoseCheckComparesAWithP :
    (((102 : Nat) : Int) - ((100 : Nat) : Int)).natAbs * 1000 = 20 * 100 ∧ 2 ≤ 100 ∧ 0 < 100
      ∧ 51532529664 ≤ 51532529664 ∧ 500 ≤ 500 := by decide

/-- The running part's doses are in order: its frame, and every cell of its map, without lines. -/
theorem witness_DosesStayWithinTheirBounds : TablesOk running ∧ HeadOk running ∧ DosesOk running := by
  refine ⟨witness_TableFormIsKept, witness_HeadRangesAreKept.2, ?_⟩
  constructor
  case driven_ok => rintro bases mRef ⟨⟩; exact ⟨⟨by decide, by decide⟩, by decide⟩
  case pages_ok =>
    intro c hc
    have : c = page := by simpa [running, exposing] using hc
    subst this
    rintro ml ⟨⟩
    decide
  case orphan_ok => rintro c ⟨⟩
  case frame_ok => rintro x ⟨⟩; decide
  case cells_ok => rintro f ⟨⟩; decide
  case widths_ok => exact ⟨by decide, by decide⟩
  all_goals decide

theorem witness_DosesStayWithinTheirBounds_lines :
    (List.replicate 2048 8191).length ≤ 2048 ∧ (∀ w ∈ List.replicate 2048 8191, w ≤ 8191) ∧ (65535 : Nat) ≤ 65535
      ∧ expo.linesExposed + expo.linesFlooded ≤ 3072 ∧ 3072 + 0 ≤ 3072
      ∧ (∀ c ∈ (ficheWith .exposing).map, c.linesExposed + c.linesFlooded ≤ 3072)
      ∧ (ficheWith .exposing).map.length ≤ 420 := by
  refine ⟨?_, ?_, by decide, by decide, by decide, by decide, by decide⟩
    <;> simp only [List.length_replicate, List.mem_replicate] <;> omega

/-- `s` with a head of this state, average in progress and warm counter. -/
def headed (st : HeadState) (count warm : Nat) (s : State) : State :=
  { s with head := { Head.reset with state := st, count := count, len := some 4, warmCounter := warm } }

theorem witness_ConversionsCompleteAverages :
    (headed .ready 0 0 (idle [])).head.state ≠ .parked ∧ (idle []).tables.pins = none
      ∧ (headed .ready 0 0 (idle [])).head.count + 1 ≠ 4 ∧ (headed .ready 3 0 (idle [])).head.count + 1 = 4
      ∧ (opened []).tables.pins.isSome = true ∧ prof.basis = .averaged ∧ ({ prof with basis := .raw } : Profile).basis = .raw
      ∧ (let s := headed .warming 3 2 (loading Engine.reset);
         s.head.state = .warming ∧ s.profile.underLimit ≤ 36000 ∧ 36000 ≤ s.profile.overLimit
           ∧ s.head.overActive = false ∧ s.head.underActive = false ∧ s.head.warmCounter + 1 < s.profile.warmCount)
      ∧ (let s := headed .warming 3 3 (loading Engine.reset);
         s.profile.warmCount ≤ s.head.warmCounter + 1 ∧ s.job.state = .opening
           ∧ s.job.fiche = some { fiche with openingMet := false } ∧ fiche.outcome = none
           ∧ s.job.fopenedDue = false ∧ s.job.onStop = none ∧ s.transport.card = .loading
           ∧ s.engine.state = .idle ∧ s.engine.exposure = none)
      -- an average outside the limits; the card already LOADED, the engine IDLE and in WAIT_OPEN
      ∧ (let s := headed .warming 3 3 (loading Engine.reset);
         ¬ (s.profile.underLimit ≤ 29999 ∧ 29999 ≤ s.profile.overLimit) ∧ 0 < s.profile.warmCount)
      ∧ (∀ e ∈ [Engine.reset, { Engine.reset with state := .waitOpen, exposure := some expo }],
         let s := headed .warming 3 3 { loading e with transport := (opened []).transport };
         s.transport.card = .loaded ∧ slotFree s .job = true ∧ s.transport.inFlight = none
           ∧ s.transport.pendingReq = none ∧ s.engine.state = e.state)
      ∧ ((idle []).tables.profileEntry 0).valid = true ∧ (State.reset.tables.profileEntry 0).valid = false := by decide

theorem witness_HeadMonitorComparesAndCorrects :
    running.profile.underLimit < running.profile.overLimit ∧ running.profile.overLimit < 45001
      ∧ running.profile.underLimit ≤ 30000 ∧ 45000 ≤ running.profile.overLimit ∧ 29999 < running.profile.underLimit
      ∧ prof.correctionOn = true ∧ ({ prof with correctionOn := false } : Profile).correctionOn = false
      ∧ (16384 * prof.mRef + 60000 / 2) / 60000 < 12288 ∧ 24576 < (16384 * prof.mRef + 26666 / 2) / 26666
      ∧ (16384 * prof.mRef + 26667 / 2) / 26667 = 24576 := by decide

theorem witness_PinsAndTimersMoveTheHeadState :
    State.reset.head.state = .parked ∧ (opened []).head.state = .ready
      ∧ ({ Head.reset with state := .warming } : Head).state = .warming ∧ (opened []).tables.pins = some pins
      ∧ ({ Head.reset with state := .ready, parkTimer := some 60000 } : Head).parkTimer.isSome = true
      ∧ (let h : Head := { Head.reset with state := .warming, warmTimer := some 30000 };
         h.state = .warming ∧ h.warmTimer.isSome = true)
      ∧ (idle []).job.state = .idle ∧ (idle []).job.fopenedDue = false ∧ (idle []).job.onStop = none
      ∧ (let s : State := { loading Engine.reset with transport := (opened []).transport };
         s.job.state = .opening ∧ s.job.fiche = some { fiche with openingMet := false } ∧ fiche.outcome = none
           ∧ s.intake.band = none ∧ s.engine.state = .idle ∧ s.engine.exposure = none
           ∧ s.transport.card = .loaded ∧ s.transport.inFlight = none ∧ s.transport.pendingReq = none) := by decide

theorem witness_MotionCommandsAreRequestedAndTimed :
    ((idle []).transport.inFlight = none ∧ (idle []).transport.pendingReq = none
        ∧ (idle []).transport.card = .empty ∧ (opened []).transport.card = .loaded)
      ∧ State.reset.transport.inFlight = some { number := 0, motion := .home }
      ∧ (let s := loading Engine.reset;
         s.transport.inFlight = some { number := 1, motion := .load } ∧ s.transport.pendingReq = none
           ∧ Motion.load ≠ .home ∧ s.transport.timer = none)
      ∧ ({ (loading Engine.reset).transport with pendingReq := some (.eject .reject) } : Transport).pendingReq
        = some (.eject .reject) := by decide

theorem witness_StrayRepliesAreIgnored :
    (idle []).transport.inFlight = none
      ∧ State.reset.transport.inFlight = some { number := 0, motion := .home } ∧ (0 : CommandNumber) ≠ 1
      ∧ Motion.home ≠ .load ∧ readReply [lineFeed] = none ∧ 32 < (List.replicate 33 lineFeed).length
      ∧ readReply (wordDone ++ [space, 55, lineFeed]) = some (.done 7)
      ∧ readReply (wordFault ++ [space, 55, space] ++ wordJam ++ [lineFeed]) = some (.fault 7 .jam) := by decide

/-- A FRAME with a key of 24 bytes and every count at its largest. -/
def largestFrame : FrameReport :=
  { seq := 7, cell := 419, kind := .index, final := .exposedFault
    flags := { intake := IntakeFlags.none, engine := EngineFlags.none }, holdCount := 255, linesExposed := 3072
    linesFlooded := 0, a := 51532529664, p := 51532529664, mMin := 0, mMax := 65535
    key := some (List.replicate 24 65) }

theorem witness_OutputsAreWrittenAsGiven :
    (let r := largestFrame;
     r.cell ≤ 419 ∧ r.holdCount ≤ 255 ∧ (r.key.getD []).length ≤ 24 ∧ r.linesExposed ≤ 3072 ∧ r.linesFlooded ≤ 3072
       ∧ r.a ≤ 51532529664 ∧ r.p ≤ 51532529664 ∧ r.mMin ≤ 65535 ∧ r.mMax ≤ 65535)
      ∧ (16 : Nat) ≤ 16 ∧ (65535 : Nat) ≤ 65535 ∧ 10 ≤ 65535 ∧ (opened []).engine.driven = none := by decide

/-- Layouts and profiles on both sides of a check's boundary: 420 and 432 cells (no layout has 421), pulse max at and above line period − 32. -/
theorem witness_FieldChecksAcceptTheRanges :
    ({ lay with rows := 15, columns := 28 } : Layout).ok = true
      ∧ ({ lay with rows := 16, columns := 27 } : Layout).ok = false
      ∧ ({ prof with linePeriod := 4132 } : Profile).ok = true ∧ ({ prof with linePeriod := 4131 } : Profile).ok = false
      ∧ ({ prof with underLimit := 45000 } : Profile).ok = false := by decide

/-- PHEADs, and the entries and offsets of a TWRITE and a TREAD, on both sides of their boundaries. -/
theorem witness_FieldChecksAcceptTheRanges_payloads :
    (let phead (w h d k : Nat) : List Byte :=
       pheadPayload { target := .next, w := w, h := h, depth := 8, d := d, key := some (List.replicate k 65) };
     (readPhead (phead 4096 6144 2 24)).isSome = true ∧ readPhead (phead 4097 1 1 0) = none
       ∧ readPhead (phead 1 6145 1 0) = none ∧ readPhead (phead 1 2 2 0) = none ∧ readPhead (phead 2 2 2 25) = none)
      ∧ readEntry [0, 7] = some (.layout, 7) ∧ readEntry [0, 8] = none ∧ readEntry [1, 4] = none
      ∧ readEntry [3, 1] = none ∧ readEntry [4, 0] = none
      ∧ judgeTread [1, 3, 192] = some (.curve, 3, 192) ∧ judgeTread [1, 3, 65] = none
      ∧ judgeTread [0, 3, 65] = some (.layout, 3, 65) ∧ readUnit [60, 1] = some ⟨60, true⟩ ∧ readUnit [60, 2] = none := by
  decide

/-- A TWRITE of these contents to an entry, at the head of an IDLE part's queue. -/
def writing (sel : TableSel) (n : Nat) (contents : List Byte) : State :=
  idle [rcd .twrite (twritePayload sel n contents)]

set_option maxRecDepth 20000 in
theorem witness_TwriteIsTakenWholeOrRefused :
    (∀ x ∈ [(TableSel.layout, 7, layoutContents lay), (.curve, 3, quarterContents ⟨192, List.replicate 64 8191⟩),
        (.profile, 7, profileContents prof), (.unit, 0, unitContents ⟨255, false⟩)],
      let s := writing x.1 x.2.1 x.2.2;
      headRecord .twrite s = s.link.inbound.head? ∧ slotFree s .tables = true ∧ s.job.onStop ≠ some .resetFull
        ∧ readEntry (twritePayload x.1 x.2.1 x.2.2) = some (x.1, x.2.1) ∧ s.tables.pinned x.1 x.2.1 = false)
      ∧ readLayout (layoutContents lay) = some lay ∧ lay.ok = true
      ∧ (readQuarter (quarterContents ⟨192, List.replicate 64 8191⟩)).isSome = true
      ∧ readProfile (profileContents prof) = some prof ∧ prof.ok = true ∧ 7 < (writing .profile 7 []).tables.profiles.length
      ∧ readUnit (unitContents ⟨255, false⟩) = some ⟨255, false⟩
      ∧ slotFree (blocked .tables (idle [])) .tables = false ∧ readEntry [4, 0] = none
      ∧ (opened []).tables.pinned .layout 0 = true
      ∧ readLayout (layoutContents { lay with rows := 0 }) = some { lay with rows := 0 }
      ∧ ({ lay with rows := 0 } : Layout).ok = false ∧ readQuarter [] = none ∧ readUnit [] = none
      ∧ ({ prof with maxVoids := 16 } : Profile).ok = false := by decide

theorem witness_QueriesAreAnswered :
    (let s := idle [rcd .tread (treadPayload .curve 3 192)];
     headRecord .tread s = s.link.inbound.head? ∧ slotFree s .tables = true ∧ s.job.onStop ≠ some .resetFull)
      ∧ judgeTread (treadPayload .curve 3 192) = some (.curve, 3, 192) ∧ judgeTread [] = none
      ∧ (∀ fl ∈ [(0 : Byte), 1],
          let r : Record := { rcd .qstat [] with flags := fl };
          headRecord .qstat (idle [r]) = some r ∧ slotFree (idle [r]) .status = true)
      ∧ (0 : Byte).getLsbD 0 = false ∧ (1 : Byte).getLsbD 0 = true := by decide

end Sys2Proof.Tests
end

section
/-!
PROOFS. O5, O6 and O10: one walk over the commands for every property that reads only the fiche record, the command in
flight and the pending request (`EventClosed`), and its uses for the fiche's accounts, the accept stack and the outcome.
-/

namespace Sys2Proof.Machine

variable {s t : State} {P : State → Prop}

/-! ### One walk over the commands -/

/-- A property of the fiche record, the command in flight and the pending request that the shared operations keep. The
take of a FOPEN, which makes another fiche record, is not among them. -/
structure EventClosed (P : State → Prop) : Prop where
  noFiche : ∀ {s}, s.job.fiche = none → P s
  same : ∀ {s t}, P s → t.job.fiche = s.job.fiche → t.transport.inFlight = s.transport.inFlight →
    t.transport.pendingReq = s.transport.pendingReq → P t
  closeTag : ∀ {s f tag}, P s → s.job.fiche = some f → P (s.setFiche { f with closeTag := tag })
  assign : ∀ {s cell key}, P s → P (assignCell cell key s)
  admission : ∀ {s}, P s → P (admitContext s)
  outcome : ∀ {s o}, P s → P (setOutcome o s)
  home : ∀ {s}, P s → P (requestMotion .home s)
  reject : ∀ {s}, P s → P (requestEject .reject s)
  discard : ∀ {s}, P s → P (discardPending s)
  release : ∀ {s}, P s → P (release s)
  stop : ∀ {s}, P s → P (stopEngine s)
  lineEnd : ∀ {s x bases mRef}, P s → P (imageLineEnd x bases mRef s)
  floodEnd : ∀ {s x}, P s → P (floodLineEnd x s)
  tests : ∀ {s}, P s → P (jobTests s)
  proceeds : ∀ {s}, P s → P (jobProceeds s)
  notReady : ∀ {s}, P s → P (takeHeadNotReady s)
  fault : ∀ {s code k}, P s → P (transportFault code k s)
  noStock : ∀ {s}, P s → P (loadNoStock s)
  done : ∀ {s k}, P s → P (motionDone k s)

namespace EventClosed

/-- An operation that leaves the fiche record and the transport controller alone keeps the property. -/
theorem frame (hP : EventClosed P) (h : P s) (hf : t.job.fiche = s.job.fiche) (ht : t.transport = s.transport) : P t :=
  hP.same h hf (by rw [ht]) (by rw [ht])

/-- The end of an event keeps what its own action kept. -/
theorem concluded (hP : EventClosed P) (h : P s) {after : Option State} (ha : ∀ u, after = some u → P u)
    (he : conclude s after = .next t) : P t := by
  cases after with
  | none => cases he; exact h
  | some u => cases he; exact hP.frame (ha u rfl) (by simp) (by simp)

theorem finished (hP : EventClosed P) {s0 u : State} (h : P u)
    (he : (Host.Outcome.next (linkFinish s0 u) : Host.Outcome State Fault Refusal) = .next t) : P t := by
  cases he
  exact hP.frame h (by simp) (by simp)

theorem removed (hP : EventClosed P) (h : P s) : P (removeHead s) := hP.frame h (by simp) (by simp)

theorem ending (hP : EventClosed P) (h : P s) : P (endingActions s) :=
  hP.stop (hP.frame h (by simp) (by simp))

/-- The FCLOSE (R17): refused, or taken with its close tag. -/
theorem fclose (hP : EventClosed P) (h : P s) (he : offerFclose s = some t) : P t := by
  unfold offerFclose at he
  (repeat' split at he) <;> cases he
  · exact hP.frame h (by simp) (by simp)
  · unfold takeFclose
    cases hf : s.job.fiche with
    | none => exact hP.tests (hP.noFiche (by simp [hf]))
    | some f => exact hP.tests (hP.frame (hP.closeTag (tag := some _) h hf) (by simp; rfl) (by simp))

/-- Page records reach the fiche record and the transport controller by a PHEAD's take alone (R7, R16, R66). -/
theorem pheadTake (hP : EventClosed P) (h : P s) (he : takePhead s = some t) : P t := by
  have taken : ∀ cell f, P (takePage cell f s) := fun cell f => by
    have h1 : ∀ i, P (admitContext ((assignCell cell f.key s).setIntake i)) := fun i =>
      hP.admission (hP.frame (hP.assign h) rfl rfl)
    exact hP.removed (h1 _)
  unfold takePhead at he
  (repeat' split at he) <;> cases he <;> first
    | exact taken _ _
    | exact hP.frame h (by simp) (by simp)

theorem tableRecords (hP : EventClosed P) (h : P s) (he : offerTwrite s = some t ∨ offerTread s = some t ∨
    offerQstat s = some t) : P t := by
  unfold offerTwrite offerTread offerQstat clearOption at he
  rcases he with he | he | he <;> (repeat' split at he) <;> cases he <;>
    exact hP.frame h (by simp) (by simp)

theorem conversion (hP : EventClosed P) (h : P s) {raw : Nat} (he : acceptConversion raw s = some t) : P t := by
  have h1 : P (takeConversion raw s) := hP.frame h (by simp) (by simp)
  unfold acceptConversion at he
  dsimp only at he
  (repeat' split at he) <;> cases he
  · exact hP.tests h1
  · exact h1

theorem warmExpiry (hP : EventClosed P) (h : P s) (he : expireWarm s = some t) : P t := by
  unfold expireWarm at he
  split at he <;> cases he
  exact hP.tests (hP.notReady (hP.frame h (by simp) (by simp)))

theorem imageEnd (hP : EventClosed P) (h : P s) (he : endImageLine s = some t) : P t := by
  unfold endImageLine at he
  split at he <;> cases he
  exact hP.tests (hP.lineEnd h)

theorem floodLine (hP : EventClosed P) (h : P s) (he : endFloodLine s = some t) : P t := by
  unfold endFloodLine at he
  split at he <;> cases he
  exact hP.tests (hP.floodEnd h)

theorem holdExpiry (hP : EventClosed P) (h : P s) (he : expireHold s = some t) : P t := by
  unfold expireHold at he
  split at he <;> cases he
  exact hP.frame h (by simp) (by simp)

theorem placed (hP : EventClosed P) (h : P s) (he : placeWaiting s = some t) : P t := by
  unfold placeWaiting at he
  (repeat' split at he) <;> cases he
  rename_i p r rest _ _
  have h1 : P (s.setLink { s.link with slots := rest, reports := s.link.reports ++ [r] }) := hP.frame h rfl rfl
  unfold producerProceeds
  split
  · split
    · exact hP.tests (hP.release h1)
    · exact hP.tests h1
  · exact hP.tests h1
  all_goals exact h1

theorem doneReply (hP : EventClosed P) (h : P s) {n : CommandNumber} (he : takeDone n s = some t) : P t := by
  unfold takeDone at he
  (repeat' split at he) <;> cases he
  exact hP.tests (hP.done h)

theorem faultReply (hP : EventClosed P) (h : P s) {n : CommandNumber} {code : ReplyCode}
    (he : takeFault n code s = some t) : P t := by
  unfold takeFault at he
  (repeat' split at he) <;> cases he
  · exact hP.tests (hP.fault h)
  · exact hP.tests (hP.fault h)
  · exact hP.tests (hP.noStock h)

theorem timeout (hP : EventClosed P) (h : P s) (he : takeTimeout s = some t) : P t := by
  unfold takeTimeout at he
  split at he <;> cases he
  exact hP.tests (hP.fault h)

theorem line (hP : EventClosed P) (h : P s) {l : List Byte} (he : takeLine l s = some t) : P t := by
  unfold takeLine at he
  (repeat' split at he)
  · cases he
  · exact hP.doneReply h he
  · exact hP.faultReply h he

theorem aborted (hP : EventClosed P) (h : P s) {tag : Tag} {e : LinkErrReport} : P (takeAbort tag e s) := by
  unfold takeAbort
  dsimp only
  split
  · have h1 : ∀ r, P (composeSlot .priority r s) := fun r => hP.frame h (by simp) (by simp)
    split
    · exact hP.tests (hP.ending (hP.frame (hP.outcome (h1 _)) (by simp; rfl) (by simp)))
    · exact h1 _
  · exact hP.frame h (by simp) (by simp)

theorem slotCleared (hP : EventClosed P) (h : P s) : P (engineSlotCleared s) := by
  unfold engineSlotCleared
  split
  · exact hP.release h
  · exact h

theorem softReset (hP : EventClosed P) (h : P s) {tag : Tag} : P (takeSoftReset tag s) := by
  have h1 : P (jobProceeds (engineSlotCleared (resetLink .soft tag s))) :=
    hP.proceeds (hP.slotCleared (hP.frame h (by simp [resetLink]) (by simp [resetLink])))
  have job : ∀ {u : State} {again}, P u → P (softResetJob again u) := by
    intro u again hu
    unfold softResetJob
    (repeat' split) <;> first
      | exact hu
      | exact hP.ending (hP.outcome hu)
      | exact hP.reject hu
      | exact hP.home (hP.frame hu (by simp) (by simp))
  have alerts : ∀ {u : State}, P u → P (clearAlerts u) := fun hu => hP.frame hu (by simp) (by simp)
  have h2 := hP.discard (alerts h1)
  exact hP.tests (job (hP.frame h2 (by simp) (by simp)))

/-- A RESET FULL discards the fiche record (R32) before the engine is told to stop. -/
theorem fullReset (hP : EventClosed P) {tag : Tag} : P (takeFullReset tag s) :=
  hP.tests (hP.stop (hP.noFiche (by simp [discardFiche])))

theorem frameTaken (hP : EventClosed P) (h : P s) {bytes : List Byte} : P (takeFrame bytes s) := by
  unfold takeFrame
  split
  · exact hP.frame h (by simp) (by simp)
  · unfold takeRecord
    split
    · exact hP.aborted h
    · split
      · exact hP.fullReset
      · exact hP.softReset h
    all_goals (repeat' split) <;> exact hP.frame h (by simp) (by simp)

theorem linkLost (hP : EventClosed P) (h : P s) {cause : LossCause} :
    P (jobTests (takeLinkLoss (jobProceeds (engineSlotCleared (linkDown cause s))))) := by
  have h1 := hP.proceeds (hP.slotCleared (hP.frame (t := linkDown cause s) h (by simp [linkDown]) (by simp [linkDown])))
  unfold takeLinkLoss
  (repeat' split) <;> first
    | exact hP.tests h1
    | exact hP.tests (hP.ending (hP.outcome h1))

end EventClosed

/-- Every command but FOPEN keeps such a property. -/
theorem exec_keeps (hP : EventClosed P) {c : Instr} (hc : c ≠ .fopen) (h : P s) (he : exec c s = .next t) : P t := by
  cases c with
  | fopen => exact absurd rfl hc
  | powerOn => cases he; exact hP.noFiche rfl
  | signalDetectRising =>
    simp only [exec, execSignalDetectRising] at he
    split at he <;> cases he <;> exact hP.frame h rfl rfl
  | alignment =>
    simp only [exec, execAlignment] at he
    split at he <;> cases he <;> exact hP.frame h (by simp) (by simp)
  | lossOfSignal cause =>
    simp only [exec, execLossOfSignal] at he
    split at he <;> cases he
    · exact h
    · exact hP.linkLost h
  | frameReceived bytes =>
    simp only [exec, execFrameReceived] at he
    split at he
    · exact hP.finished (hP.frameTaken h) he
    · cases he; exact h
  | frameEndedByStartDelimiter bytes =>
    simp only [exec, execFrameEndedByStartDelimiter] at he
    split at he <;> cases he <;> exact hP.frame h (by simp) (by simp)
  | transmissionEnds =>
    simp only [exec, execTransmissionEnds] at he
    split at he <;> cases he <;> exact hP.frame h (by simp) (by simp)
  | reportPlaced => exact hP.concluded h (fun _ => hP.placed h) he
  | fclose => exact hP.concluded h (fun _ => hP.fclose h) he
  | phead =>
    refine hP.concluded h (fun u hu => ?_) he
    unfold examinePhead checkPhead at hu
    (repeat' split at hu) <;> cases hu <;> exact hP.frame h (by simp) (by simp)
  | pheadTake => exact hP.concluded h (fun _ => hP.pheadTake h) he
  | pband =>
    refine hP.concluded h (fun u hu => ?_) he
    unfold examinePband beginBand at hu
    (repeat' split at hu) <;> cases hu <;> exact hP.frame h (by simp) (by simp)
  | bandLine =>
    refine hP.concluded h (fun u hu => ?_) he
    unfold takeBandLine consumeLine at hu
    dsimp only at hu
    (repeat' split at hu) <;> cases hu <;> exact hP.frame h (by simp) (by simp)
  | pend =>
    refine hP.concluded h (fun u hu => ?_) he
    unfold examinePend at hu
    (repeat' split at hu) <;> cases hu <;> exact hP.frame h (by simp) (by simp)
  | topMarginLine =>
    cases he
    unfold appendTopMargin appendFill
    (repeat' split) <;> exact hP.frame h (by simp) (by simp)
  | fillLine =>
    cases he
    unfold appendBottomFill appendFill
    (repeat' split) <;> exact hP.frame h (by simp) (by simp)
  | twrite => exact hP.concluded h (fun _ hu => hP.tableRecords h (.inl hu)) he
  | tread => exact hP.concluded h (fun _ hu => hP.tableRecords h (.inr (.inl hu))) he
  | qstat => exact hP.concluded h (fun _ hu => hP.tableRecords h (.inr (.inr hu))) he
  | abort tag =>
    simp only [exec, execAbort] at he
    split at he
    · exact hP.finished (hP.aborted h) he
    · cases he; exact h
  | resetFull tag =>
    simp only [exec, execResetFull] at he
    split at he
    · exact hP.finished hP.fullReset he
    · cases he; exact h
  | resetSoft tag =>
    simp only [exec, execResetSoft] at he
    split at he
    · exact hP.finished (hP.softReset h) he
    · cases he; exact h
  | done n => exact hP.concluded h (fun _ => hP.doneReply h) he
  | fault n code => exact hP.concluded h (fun _ => hP.faultReply h) he
  | motionTimeout => exact hP.concluded h (fun _ => hP.timeout h) he
  | conversion raw => exact hP.concluded h (fun _ => hP.conversion h) he
  | warmTimerExpiry => exact hP.concluded h (fun _ => hP.warmExpiry h) he
  | parkTimerExpiry =>
    simp only [exec, execParkTimerExpiry] at he
    split at he <;> cases he <;> exact hP.frame h (by simp) (by simp)
  | lineEnd => exact hP.concluded h (fun _ => hP.imageEnd h) he
  | floodLineEnd => exact hP.concluded h (fun _ => hP.floodLine h) he
  | holdTimerExpiry => exact hP.concluded h (fun _ => hP.holdExpiry h) he
  | lastCharacterSent =>
    simp only [exec, execLastCharacterSent] at he
    split at he <;> cases he <;> exact hP.same h rfl rfl rfl
  | receivedLineIgnored line => exact hP.concluded h (fun _ => hP.line h) he

/-! ### The fiche's accounts and the accept stack (O5, O6) -/

/-- Every shared operation keeps what `CardKept` relates to the state an event began in. -/
theorem cardKept_closed (s0 : State) : EventClosed (CardKept s0) where
  noFiche hn := ⟨fun _ f hf => by simp [hn] at hf, fun _ _ f hf => by simp [hn] at hf⟩
  same h hf hi hp := h.trans
    ⟨fun hk f hf' => hk f (hf ▸ hf'), fun hk ha f hf' => hk (by simpa [acceptUnderWay, hi, hp] using ha) f (hf ▸ hf')⟩
  closeTag h hf := h.trans (.setFiche hf (fun ⟨h1, h2, h3, h4, h5⟩ => ⟨h1, h2, h3, h4, h5⟩) id)
  assign h := h.trans assignCell_card
  admission h := h.trans admit_card
  outcome h := h.trans setOutcome_card
  home h := h.trans (requestMotion_card (by decide))
  reject h := h.trans requestReject_card
  discard h := h.trans discardPending_card
  release h := h.trans release_card
  stop h := h.trans stopEngine_card
  lineEnd h := h.trans imageLineEnd_card
  floodEnd h := h.trans floodLineEnd_card
  tests h := h.trans jobTests_card
  proceeds h := h.trans jobProceeds_card
  notReady h := h.trans takeHeadNotReady_card
  fault h := h.trans transportFault_card
  noStock h := h.trans loadNoStock_card
  done h := h.trans motionDone_card

/-- The fiche record a FOPEN creates is in order: every cell FREE, without doses (R3, R12). -/
theorem newFiche_ok (r : Record) (f : FopenFields) (tb : Tables) : FicheOk (newFiche r f tb) where
  voids := by simp [newFiche, buildMap, countCells, freshCell, List.countP_map, Function.comp_def,
    show (CellState.free == CellState.void) = false from rfl]
  dose := by simp [newFiche, buildMap, freshCell, Function.comp_def]
  a_present := by simp [newFiche, buildMap, freshCell, Cell.isEnded, Cell.isExposed]
  p_present := by simp [newFiche, buildMap, freshCell, Cell.isEnded, Cell.isExposed]
  accept_complete := by simp [newFiche]

/-- A FOPEN passes its judgement only of an IDLE job with the card EMPTY (R11). -/
theorem judgeFopen_taken {r : Record} {f : FopenFields} (h : judgeFopen r s = .inr f) :
    s.job.state = .idle ∧ s.transport.card = .empty := by
  unfold judgeFopen at h
  (repeat' split at h) <;> simp_all

/-- A FOPEN is refused, or taken with the card EMPTY and no job (R11). -/
theorem offerFopen_cases (h : offerFopen s = some t) :
    (∃ r code, t = refuse .job r code s) ∨
      ∃ r f, t = takeFopen r f s ∧ s.transport.card = .empty ∧ s.job.state = .idle := by
  unfold offerFopen at h
  (repeat' split at h) <;> cases h
  · exact .inl ⟨_, _, rfl⟩
  · exact .inr ⟨_, _, rfl, (judgeFopen_taken ‹_›).2, (judgeFopen_taken ‹_›).1⟩

/-- With the card EMPTY no command is in flight and none waits (R140, R146). -/
theorem TransportOk.quiet_of_empty (h : TransportOk s) (hc : s.transport.card = .empty) :
    s.transport.inFlight = none ∧ s.transport.pendingReq = none := by
  have hi : s.transport.inFlight = none := by
    cases hf : s.transport.inFlight with
    | none => rfl
    | some k =>
      have := h.card_of_flight k hf
      rw [hc] at this
      cases k with | mk n m => cases m <;> simp [Motion.card] at this
  refine ⟨hi, ?_⟩
  cases hp : s.transport.pendingReq with
  | none => rfl
  | some m => simpa [hi] using h.pending_waits (by simp [hp])

/-- A FOPEN keeps the fiche's accounts: its refusal leaves them, its take starts new ones. -/
theorem fopen_ficheOk (h : s.ficheOk) (he : exec .fopen s = .next t) : t.ficheOk := by
  cases ho : offerFopen s with
  | none =>
    simp only [exec, execFopen, conclude, ho] at he
    cases he
    exact h
  | some u =>
    simp only [exec, execFopen, conclude, ho] at he
    cases he
    intro f hf
    obtain ⟨r, code, rfl⟩ | ⟨r, g, rfl, -, -⟩ := offerFopen_cases ho
    · exact h f (by simpa using hf)
    · have : newFiche r g s.tables = f := by simpa [takeFopen] using hf
      exact this ▸ newFiche_ok r g s.tables

/-- A FOPEN sends no card to the accept stack: LOAD is the only command it requests, and nothing was under way. -/
theorem fopen_acceptOk (ht : TransportOk s) (h : AcceptOk s) (he : exec .fopen s = .next t) : AcceptOk t := by
  cases ho : offerFopen s with
  | none =>
    simp only [exec, execFopen, conclude, ho] at he
    cases he
    exact h
  | some u =>
    simp only [exec, execFopen, conclude, ho] at he
    cases he
    obtain ⟨r, code, rfl⟩ | ⟨r, g, rfl, hc, -⟩ := offerFopen_cases ho
    · exact (CardKept.of_eq (by simp) (by simp)).2 h
    · obtain ⟨hi, hp⟩ := ht.quiet_of_empty hc
      intro ha
      simp [takeFopen, requestMotion, sendOrDiscard, sendMotion, Motion.sendable, acceptUnderWay, hc, hi, hp,
        State.setTables, State.setTransport, State.setJob] at ha

/-- A step is a command on the state with the queue's rest, or nothing (log 2). -/
theorem step_cases (h : step s = .next t) :
    t = s ∨ ∃ c rest, exec c { s with pending := rest } = .next t := by
  unfold step at h
  split at h
  · cases h; exact .inl rfl
  · exact .inr ⟨_, _, h⟩

/-- Settles O5, by the walk over the commands; a FOPEN starts new accounts. -/
theorem ficheAccountsAreKept : Obligations.FicheAccountsAreKept := by
  intro s t h hs
  obtain rfl | ⟨c, rest, he⟩ := step_cases hs
  · exact h
  · by_cases hc : c = .fopen
    · subst hc
      exact fopen_ficheOk (s := { s with pending := rest }) h he
    · exact (exec_keeps (cardKept_closed { s with pending := rest }) hc .refl he).1 h

/-- Settles O6, by the walk over the commands; a FOPEN is taken only with the card EMPTY. -/
theorem acceptOnlyForCompleteFiche : Obligations.AcceptOnlyForCompleteFiche := by
  intro s t ht h hs
  obtain rfl | ⟨c, rest, he⟩ := step_cases hs
  · exact h
  · by_cases hc : c = .fopen
    · subst hc
      exact fopen_acceptOk (s := { s with pending := rest }) (ht.same rfl) h he
    · exact (exec_keeps (cardKept_closed { s with pending := rest }) hc .refl he).2 h

end Sys2Proof.Machine
end

section
/-!
PROOFS. O10: a set outcome stays. The property that every fiche record has one given outcome is kept by each shared
operation, so by every command but FOPEN.
-/

namespace Sys2Proof.Machine

variable {s t : State} {o : FicheOutcome}

/-- The fiche record, where there is one, has this outcome. -/
def OutcomeIs (o : FicheOutcome) (s : State) : Prop := ∀ g, s.job.fiche = some g → g.outcome = some o

namespace OutcomeIs

theorem same (h : OutcomeIs o s) (hf : t.job.fiche = s.job.fiche) : OutcomeIs o t := fun g hg => h g (hf ▸ hg)

theorem setFiche (h : OutcomeIs o s) {f g : Fiche} (hf : s.job.fiche = some f) (hg : g.outcome = f.outcome) :
    OutcomeIs o (s.setFiche g) := by
  intro k hk
  cases hk
  exact hg.trans (h f hf)

/-! ### Updates of the fiche record -/

theorem withOutcome (h : OutcomeIs o s) {p : FicheOutcome} : OutcomeIs o (setOutcome p s) := by
  unfold setOutcome
  split
  · exact h
  · exact h.setFiche ‹_› (by simp [Fiche.withOutcome, h _ ‹_›])

theorem withStack (h : OutcomeIs o s) {st : Stack} : OutcomeIs o (setStack st s) := by
  unfold setStack
  split
  · exact h
  · rename_i f hf
    exact h.setFiche hf rfl

theorem assign (h : OutcomeIs o s) {cell : Nat} {key : Option (List Byte)} : OutcomeIs o (assignCell cell key s) := by
  unfold assignCell
  split
  · exact h
  · rename_i f hf
    exact h.setFiche hf rfl

theorem start (h : OutcomeIs o s) {cell : Nat} : OutcomeIs o (startCell cell s) := by
  unfold startCell
  split
  · exact h
  · rename_i f hf
    split
    · exact h.setFiche hf rfl
    · exact h

theorem recorded (h : OutcomeIs o s) {cell : Nat} {old : CellState} {r : FrameResult} :
    OutcomeIs o (recordResult cell old r s) := by
  unfold recordResult
  split
  · exact h
  · rename_i f hf
    split
    · exact h.setFiche hf rfl
    · exact h

theorem faulted (h : OutcomeIs o s) {code : TransportCode} : OutcomeIs o (recordFault code s) := by
  unfold recordFault
  split
  · exact h
  · refine h.setFiche ‹_› ?_
    unfold Fiche.withFault
    split
    · rfl
    · simp [Fiche.withOutcome, h _ ‹_›]

theorem closed {f g : Fiche} (h : OutcomeIs o s) (hf : s.job.fiche = some f) (hg : g.outcome = f.outcome) :
    OutcomeIs o (closeFiche g s) :=
  (h.setFiche (g := { g with closed := true }) hf hg).same rfl

theorem rejected (h : OutcomeIs o s) : OutcomeIs o (requestEject .reject s) :=
  (h.withStack (st := .reject)).same (by simp [requestEject])

/-- With an outcome set the closing step is not made (R18). -/
theorem closing (h : OutcomeIs o s) : OutcomeIs o (closingStep s) := by
  unfold closingStep
  split
  · exact h
  · rename_i f hf
    rw [if_neg (by simp [h f hf])]
    exact h

/-! ### The exposure engine -/

theorem released (h : OutcomeIs o s) : OutcomeIs o (release s) := h.same (by simp)

theorem handedOver (h : OutcomeIs o s) {old : CellState} {x : Exposure} {r : FrameResult} :
    OutcomeIs o (handOver old x r s) := by
  have h1 := h.recorded (cell := x.cell) (old := old) (r := r)
  unfold handOver
  dsimp only
  split <;> exact h1.same (by simp)

theorem frameStopped (h : OutcomeIs o s) {x : Exposure} : OutcomeIs o (frameEndStopped x s) := by
  unfold frameEndStopped
  split
  · exact h.same (by simp)
  · exact h.handedOver

theorem lineEnded (h : OutcomeIs o s) {x : Exposure} {bases : List Nat} {mRef : Nat} :
    OutcomeIs o (imageLineEnd x bases mRef s) := by
  have h1 : ∀ e, OutcomeIs o (s.setEngine e) := fun _ => h.same rfl
  unfold imageLineEnd
  dsimp only
  split
  · exact (h1 _).frameStopped
  · split
    · exact (h1 _).handedOver
    · exact h.same (by simp)

theorem floodEnded (h : OutcomeIs o s) {x : Exposure} : OutcomeIs o (floodLineEnd x s) := by
  have h1 : ∀ e, OutcomeIs o (s.setEngine e) := fun _ => h.same rfl
  unfold floodLineEnd
  dsimp only
  split
  · exact (h1 _).frameStopped
  · split
    · exact (h1 _).handedOver
    · exact h.same (by simp)

theorem frameStarted (h : OutcomeIs o s) : OutcomeIs o (frameStart s) := by
  unfold frameStart
  split
  · exact h
  · rename_i x _
    exact (h.start (cell := x.cell)).same (by simp)

theorem stopped (h : OutcomeIs o s) : OutcomeIs o (stopEngine s) := by
  have h1 : ∀ e, OutcomeIs o (s.setEngine e) := fun _ => h.same rfl
  unfold stopEngine
  (repeat' split) <;> first
    | exact h
    | exact h1 _
    | exact h.frameStopped
    | exact (h1 _).frameStopped

theorem engineFaulted (h : OutcomeIs o s) : OutcomeIs o (engineFault s) := by
  unfold engineFault
  split <;> first
    | exact h
    | exact h.handedOver

/-! ### The job controller -/

theorem ended (h : OutcomeIs o s) : OutcomeIs o (endingActions s) :=
  (h.same (t := (setJobState .ending (clearIntake s)).setJob _) (by simp)).stopped

theorem stopTaken (h : OutcomeIs o s) : OutcomeIs o (takeStopSignal s) := by
  have h1 : OutcomeIs o (s.setJob { s.job with onStop := none }) := h.same rfl
  unfold takeStopSignal disposeCard
  dsimp only
  (repeat' split) <;> first
    | exact h
    | exact h1
    | exact h1.rejected
    | exact h1.same (by simp)

theorem openingMet (h : OutcomeIs o s) : OutcomeIs o (meetOpening s) := by
  unfold meetOpening
  split
  · exact h
  · rename_i f hf
    dsimp only
    split
    · exact (h.setFiche (g := { f with openingMet := true }) hf rfl).same (by simp)
    · exact h

theorem noStockCompleted (h : OutcomeIs o s) {f : Fiche} (hf : s.job.fiche = some f) :
    OutcomeIs o (completeNoStock f s) := by
  unfold completeNoStock
  split
  · exact ((h.same (t := engineToIdle (clearIntake s)) (by simp)).closed (f := f) (by simpa using hf) rfl).same (by simp)
  · exact h

theorem endingCompleted (h : OutcomeIs o s) : OutcomeIs o (completeEnding s) := by
  unfold completeEnding
  split
  · split
    · exact h.same (by simp)
    · rename_i f hf
      split
      · exact (h.setFiche (g := f.withDefaultStack) hf rfl).same (by simp)
      · split
        · exact (h.closed (g := f.withDefaultStack) hf rfl).same (by simp)
        · exact h
  · exact h

theorem completed (h : OutcomeIs o s) : OutcomeIs o (completeJob s) := by
  unfold completeJob
  (repeat' split) <;> first
    | exact h
    | exact h.closed ‹_› rfl
    | exact h.noStockCompleted ‹_›
    | exact h.endingCompleted
    | exact (h.closed ‹_› rfl).same (by simp)

theorem proceeded (h : OutcomeIs o s) : OutcomeIs o (jobProceeds s) :=
  (h.same (t := composeFopened s) (by simp)).closing.completed

theorem tested (h : OutcomeIs o s) : OutcomeIs o (jobTests s) :=
  (h.stopTaken.openingMet.same (t := composeFopened (meetOpening (takeStopSignal s))) (by simp)).closing.completed.same
    (by simp [jobTests])

theorem noStockTaken (h : OutcomeIs o s) : OutcomeIs o (takeNoStock s) := by
  have h1 := (h.withOutcome (p := .noStock)).withStack (st := .noStack)
  unfold takeNoStock
  dsimp only
  (repeat' split) <;> first
    | exact h
    | exact h1.same (by simp)

theorem noStockLoaded (h : OutcomeIs o s) : OutcomeIs o (loadNoStock s) := by
  have landed : ∀ x, OutcomeIs o (s.setTransport x) := fun _ => h.same rfl
  exact (landed _).noStockTaken.same (by simp [loadNoStock]; rfl)

theorem notReadyTaken (h : OutcomeIs o s) : OutcomeIs o (takeHeadNotReady s) := by
  unfold takeHeadNotReady
  split
  · exact (h.withOutcome).ended
  · exact h

theorem faultTaken (h : OutcomeIs o s) {code : TransportCode} : OutcomeIs o (takeTransportFault code s) := by
  unfold takeTransportFault
  split
  · exact h
  · exact ((h.faulted (code := code)).same (t := clearIntake _) (by simp)).engineFaulted

theorem transportFaulted (h : OutcomeIs o s) {code : TransportCode} {k : InFlight} :
    OutcomeIs o (transportFault code k s) := by
  have alerted : ∀ {before} {u : State}, OutcomeIs o u → OutcomeIs o (transportAlert code k before u) := fun hu =>
    hu.same (by simp)
  have landed : ∀ x, OutcomeIs o (discardPending (s.setTransport x)) := fun _ => h.same (by simp)
  exact (alerted (landed _)).faultTaken.same (by simp [transportFault]; rfl)

theorem moved (h : OutcomeIs o s) {k : InFlight} : OutcomeIs o (motionDone k s) := by
  have h1 : ∀ m u, OutcomeIs o u → OutcomeIs o (tellDone m u) := by
    intro m u hu
    unfold tellDone
    (repeat' split) <;> first
      | exact hu
      | exact hu.rejected
      | exact hu.frameStarted
      | exact hu.same (by simp)
  have landed : ∀ x, OutcomeIs o (s.setTransport x) := fun _ => h.same rfl
  exact (h1 k.motion _ (landed _)).same (by simp [motionDone]; rfl)

end OutcomeIs

theorem outcomeIs_closed (o : FicheOutcome) : EventClosed (OutcomeIs o) where
  noFiche hn g hg := by simp [hn] at hg
  same h hf _ _ := h.same hf
  closeTag h hf := h.setFiche hf rfl
  assign h := h.assign
  admission h := h.same (by simp)
  outcome h := h.withOutcome
  home h := h.same (by simp)
  reject h := h.rejected
  discard h := h.same (by simp)
  release h := h.released
  stop h := h.stopped
  lineEnd h := h.lineEnded
  floodEnd h := h.floodEnded
  tests h := h.tested
  proceeds h := h.proceeded
  notReady h := h.notReadyTaken
  fault h := h.transportFaulted
  noStock h := h.noStockLoaded
  done h := h.moved

/-- Settles O10, by the walk over the commands for the property that the outcome is the one found. -/
theorem outcomeIsSetOnce : Obligations.OutcomeIsSetOnce := by
  intro c s t f g o hc he hf ho hg
  have h : OutcomeIs o s := fun k hk => by
    cases hf.symm.trans hk
    exact ho
  exact exec_keeps (outcomeIs_closed o) hc h he g hg

end Sys2Proof.Machine
end

section
/-!
PROOFS. O20, O25, O27: the values after power-on, the cells of a layout and their choice, the closing step's tests.
-/

namespace Sys2Proof.Machine

/-! ### Power-on (O20) -/

theorem linkOk_reset : LinkOk State.reset := by
  constructor <;> simp [State.reset, Link.reset, Intake.reset]

theorem tablesOk_reset : TablesOk State.reset := tablesReset_ok (s := State.reset) rfl

theorem headOk_reset : HeadOk State.reset := by
  constructor <;> simp [State.reset, Head.reset, Config.unity, Config.cMin, Config.cMax]

theorem transportOk_reset : TransportOk State.reset := by
  constructor <;> simp [State.reset, Transport.reset, Motion.card]

theorem intakeOk_reset : IntakeOk State.reset := by
  constructor <;> simp [State.reset, Intake.reset]

theorem engineOk_reset : EngineOk State.reset := by
  constructor <;> simp [State.reset, Engine.reset]

theorem dosesOk_reset : DosesOk State.reset := by
  constructor <;> simp [State.reset, Engine.reset, Intake.reset, Job.reset, WidthsOk]

/-- Settles O20: the reset state meets each invariant, and its values are the stated ones by unfolding. -/
theorem powerOnValuesMeetTheInvariants : Obligations.PowerOnValuesMeetTheInvariants := by
  refine ⟨⟨linkOk_reset, tablesOk_reset, headOk_reset, transportOk_reset, ?_, ?_, intakeOk_reset, engineOk_reset,
    dosesOk_reset⟩, fun s => ?_⟩
  · exact fun f hf => by cases hf
  · exact fun _ f hf => by cases hf
  · refine ⟨rfl, rfl, rfl, rfl, rfl, rfl, rfl, rfl, rfl, rfl, rfl, rfl, rfl, rfl, rfl, rfl, rfl, rfl, rfl, rfl, rfl,
      rfl, rfl, rfl, rfl, rfl, rfl⟩

/-! ### Cells of a layout and their choice (O25) -/

/-- The ranges of R160 that the frame map rests on. -/
theorem Layout.ok_cells {l : Layout} (h : l.ok = true) :
    1 ≤ l.rows ∧ 1 ≤ l.columns ∧ l.indexCells ≤ l.columns ∧ l.rows * l.columns ≤ 420 ∧ 1 ≤ l.dataCells ∧
      (l.titleRow = true → 2 ≤ l.rows) := by
  simp only [Layout.ok, Bool.and_eq_true, Bool.or_eq_true, decide_eq_true_eq, Bool.not_eq_true'] at h
  refine ⟨by omega, by omega, by omega, by omega, by omega, fun ht => ?_⟩
  have := h.1.1.2
  simp_all

/-- A cell lies in the first row exactly below the column count. -/
theorem row_eq_zero_iff {i columns : Nat} (hc : 1 ≤ columns) : i / columns = 0 ↔ i < columns := by
  rw [Nat.div_eq_zero_iff]
  omega

/-- The last k cells of the map are the last k columns of the last row, for k not above the column count. -/
theorem last_cells_iff {i rows columns k : Nat} (hi : i < rows * columns) (hk : k ≤ columns) :
    rows * columns - k ≤ i ↔ i / columns = rows - 1 ∧ columns - k ≤ i % columns := by
  have hc : 0 < columns := Nat.pos_of_ne_zero fun h => by simp [h] at hi
  have hm := Nat.mod_lt i hc
  have hq : i / columns < rows := Nat.div_lt_of_lt_mul (Nat.mul_comm .. ▸ hi)
  have hs := Nat.div_add_mod i columns
  generalize i / columns = q at *
  generalize i % columns = m at *
  obtain ⟨d, rfl⟩ := Nat.exists_eq_add_of_lt hq
  have hrows : (q + d + 1) * columns = columns * q + d * columns + columns := by ring
  rw [hrows]
  cases d with
  | zero => omega
  | succ d =>
    have : (d + 1) * columns = d * columns + columns := by ring
    omega

/-- How many numbers below n lie from lo up to hi. -/
theorem countP_range_between (lo hi n : Nat) :
    (List.range n).countP (fun i => decide (lo ≤ i) && decide (i < hi)) = min n hi - lo := by
  induction n with
  | zero => simp
  | succ n ih =>
    rw [List.range_succ, List.countP_append, ih, List.countP_cons, List.countP_nil]
    by_cases h1 : lo ≤ n <;> by_cases h2 : n < hi <;> simp [h1, h2] <;> omega

/-- A cell is DATA between the title row and the index cells. -/
theorem cellKind_data_iff (l : Layout) (i : Nat) :
    cellKind l i = .data ↔ (if l.titleRow then l.columns else 0) ≤ i ∧ i < l.rows * l.columns - l.indexCells := by
  unfold cellKind
  cases l.titleRow <;> (repeat' split) <;> simp_all <;> omega

theorem countP_data (l : Layout) : ((buildMap l).countP fun c => c.kind == .data) = l.dataCells := by
  have hk : ∀ i ∈ List.range (l.rows * l.columns),
      (((fun c : Cell => c.kind == .data) ∘ fun i => freshCell (cellKind l i)) i) = true ↔
      (decide ((if l.titleRow then l.columns else 0) ≤ i) && decide (i < l.rows * l.columns - l.indexCells)) = true :=
    fun i _ => by simp [freshCell, cellKind_data_iff]
  rw [buildMap, List.countP_map, List.countP_congr hk, countP_range_between, Layout.dataCells]
  omega

theorem cellKindsFollowTheLayout : Sys2Proof.Clauses.CellKindsFollowTheLayout := by
  intro l hl
  obtain ⟨hrows, hcols, hidx, hcells, hdata, htitle⟩ := l.ok_cells hl
  refine ⟨fun i hi => ?_, countP_data l, hdata, by simpa [buildMap] using hcells⟩
  have hlast := last_cells_iff hi hidx
  have hfirst := row_eq_zero_iff (i := i) hcols
  refine ⟨?_, ?_⟩
  · rw [hfirst]
    unfold cellKind
    (repeat' split) <;> simp_all
  · rw [← hlast]
    unfold cellKind
    split
    · rename_i ht
      simp only [Bool.and_eq_true, decide_eq_true_eq] at ht
      have h2 : 2 * l.columns ≤ l.rows * l.columns := Nat.mul_le_mul_right _ (htitle ht.1)
      simp only [reduceCtorEq, false_iff]
      omega
    · split <;> simp_all

/-- Columns of `rows` cells each, one after the other, numbered through (R5). -/
theorem flatMap_columns (rows width n : Nat) :
    ((List.range n).flatMap fun c => (List.range rows).map fun r => r * width + c)
      = (List.range (n * rows)).map fun k => k % rows * width + k / rows := by
  induction n with
  | zero => simp
  | succ n ih =>
    rw [List.range_succ, List.flatMap_append, ih, Nat.succ_mul, List.range_add, List.map_append, List.map_map]
    refine congrArg _ ?_
    simp only [List.flatMap_cons, List.flatMap_nil, List.append_nil]
    refine List.map_congr_left fun r hr => ?_
    have hr : r < rows := List.mem_range.mp hr
    have hd : (n * rows + r) / rows = n := by
      rw [Nat.mul_comm, Nat.mul_add_div (by omega), Nat.div_eq_of_lt hr, Nat.add_zero]
    simp [hd, Nat.mod_eq_of_lt hr]

theorem cellsAreChosenInFillOrder : Sys2Proof.Clauses.CellsAreChosenInFillOrder := by
  intro l map
  refine ⟨fun h => by simp [fillOrderCells, h], fun h => ?_, fun pre i post hl hpre hi => ?_, fun h => ?_, fun i => ?_⟩
  · simp [fillOrderCells, h, flatMap_columns]
  · have : (fillOrderCells l).find? (isFreeData map) = some i := by
      rw [List.find?_eq_some_iff_append]
      exact ⟨hi, pre, post, hl, fun j hj => by simp [hpre j hj]⟩
    simp [chooseCell, this]
  · have : (fillOrderCells l).find? (isFreeData map) = none := by simpa using h
    simp [chooseCell, this]
  · refine ⟨fun h => by simp [chooseCell, h], fun c hc => ⟨fun h => ?_, fun h => ?_⟩⟩ <;> simp [chooseCell, hc, h]

/-- Settles O25, by the arithmetic of rows and columns and the search through the fill order. -/
theorem cellKindsAndCellChoice : Obligations.CellKindsAndCellChoice :=
  ⟨cellKindsFollowTheLayout, cellsAreChosenInFillOrder⟩

/-! ### The closing step's tests (O27) -/

theorem Cell.isExposed_iff (c : Cell) : c.isExposed = true ↔ c.state = .exposed ∨ c.state = .exposedFault := by
  simp [Cell.isExposed]

/-- Settles O27, test by test in R19's order. -/
theorem outcomeTestsInOrder : Obligations.OutcomeTestsInOrder := by
  intro map voids p exposed
  have hdata : map.any (fun c => c.kind == .data && c.isExposed) = true ↔ ∃ c ∈ map, c.kind = .data ∧ exposed c := by
    simp [exposed, Cell.isExposed_iff]
  have hindex : map.any (fun c => c.kind == .index && !c.isExposed) = true ↔
      ∃ c ∈ map, c.kind = .index ∧ ¬ exposed c := by
    simp [exposed, ← Cell.isExposed_iff]
  refine ⟨fun h => ?_, fun h => ⟨fun hv => ?_, fun hv => ⟨fun hr hi => ?_, fun hi => ?_⟩⟩, rfl, ?_⟩
  · rw [← hdata, Bool.not_eq_true] at h
    rw [evaluateOutcome, if_pos h]
  · rw [evaluateOutcome, if_neg (by simp [hdata.mpr h]), if_pos hv]
  · rw [evaluateOutcome, if_neg (by simp [hdata.mpr h]), if_neg (by omega), if_pos (by simp [hr, hindex.mpr hi])]
  · have : (p.indexRequired && map.any (fun c => c.kind == .index && !c.isExposed)) = false := by
      rw [Bool.and_eq_false_iff, ← Bool.not_eq_true (map.any _), hindex]
      exact hi.imp_right fun hall ⟨c, hc, hk, hx⟩ => hx (hall c hc hk)
    rw [evaluateOutcome, if_neg (by simp [hdata.mpr h]), if_neg (by omega), if_neg (by simp [this])]
  · intro s f hj hf ho hn hc he
    simp [closingStep, hf, hj, ho, hn, hc, he]

end Sys2Proof.Machine
end

section
/-!
PROOFS. What the shared operations come to in the cases the statements name: motion requests, the card's disposal, the
closing step, completions, the job controller's tests by job state, and when no line start is due.
-/

open Sys2Proof

namespace Sys2Proof.Machine

variable {s : State} {f : Fiche}

/-! ### Motion requests -/

/-- A card at rest on the stage, with no command in flight and none waiting. -/
def CardRests (t : Transport) : Prop :=
  (t.card = .loaded ∨ t.card = .atCell) ∧ t.inFlight = none ∧ t.pendingReq = none

/-- With nothing under way a request that the card state allows is sent (R140, R146). -/
theorem requestMotion_sent {m : Motion} (hi : s.transport.inFlight = none) (hp : s.transport.pendingReq = none)
    (hm : m.sendable s.transport.card = true) : requestMotion m s = sendMotion m s := by
  simp [requestMotion, homeUnderWay, sendOrDiscard, hi, hp, hm]

/-- Behind a command in flight a request other than HOME waits (R146). -/
theorem requestMotion_waits {m : Motion} {k : InFlight} (hi : s.transport.inFlight = some k)
    (hp : s.transport.pendingReq = none) (hm : m ≠ .home) :
    requestMotion m s = s.setTransport { s.transport with pendingReq := some m } := by
  simp [requestMotion, hi, hp, hm]

/-- With no request waiting none is judged (R148). -/
theorem takePending_none (hp : s.transport.pendingReq = none) : takePending s = s := by simp [takePending, hp]

/-- The stack a request for an eject sets (R20, R24). -/
def EjectStack.stack : EjectStack → Stack
  | .accept => .accept
  | .reject => .reject

theorem requestEject_eq (st : EjectStack) (hf : s.job.fiche = some f) :
    requestEject st s = requestMotion (.eject st) (s.setFiche { f with stack := some st.stack }) := by
  cases st <;> simp [requestEject, setStack, hf, EjectStack.stack]

/-- An eject requested of a card at rest is sent at once (R20, R140). -/
theorem requestEject_sent (st : EjectStack) (hf : s.job.fiche = some f) (hr : CardRests s.transport) :
    requestEject st s = { s with
      job := { s.job with fiche := some { f with stack := some st.stack } }
      transport := Clauses.ejectSent st s.transport } := by
  obtain ⟨hc, hi, hp⟩ := hr
  rw [requestEject_eq st hf, requestMotion_sent (by simpa using hi) (by simpa using hp)
    (by rcases hc with h | h <;> simp [Motion.sendable, h])]
  rfl

/-- The card's disposal (R24 step 3), for a card that is loading, at rest, or moving with nothing pending. -/
theorem disposeCard_eq (hf : s.job.fiche = some f) (hi : s.transport.inFlight = none ↔
      (s.transport.card = .loaded ∨ s.transport.card = .atCell)) (hp : s.transport.pendingReq = none) :
    disposeCard s = Clauses.disposed f s := by
  have rests : s.transport.card = .loaded ∨ s.transport.card = .atCell → CardRests s.transport :=
    fun hc => ⟨hc, hi.mpr hc, hp⟩
  have keeps : { s with job := { s.job with fiche := some f } } = s := by rw [← hf]
  cases hc : s.transport.card with
  | loaded | atCell =>
    simp only [disposeCard, Clauses.disposed, hc]
    exact requestEject_sent .reject hf (rests (by simp [hc]))
  | moving =>
    have hne : s.transport.inFlight ≠ none := fun h => by simp [hc] at hi; exact hi h
    obtain ⟨k, hk⟩ := Option.ne_none_iff_exists'.mp hne
    simp only [disposeCard, Clauses.disposed, hc]
    rw [← hc, requestEject_eq .reject hf,
      requestMotion_waits (k := k) (by simpa using hk) (by simpa using hp) (by simp)]
    rfl
  | loading | homing | empty | ejecting | fault =>
    simp only [disposeCard, Clauses.disposed, hc]
    exact keeps.symm

/-! ### The closing step and completions -/

/-- The closing step of a card at rest (R18 to R20). -/
theorem closingStep_made (hj : s.job.state = .closing) (hf : s.job.fiche = some f) (ho : f.openingMet = true)
    (hn : f.outcome = none) (hc : s.intake.contexts = []) (he : s.engine.state = .idle) (hr : CardRests s.transport) :
    closingStep s = Clauses.closingMade f s := by
  have step : closingStep s = requestEject (evaluateOutcome f.map f.voidCount s.profile).closingStack
      (s.setFiche { f with outcome := some (evaluateOutcome f.map f.voidCount s.profile) }) := by
    simp [closingStep, hf, hj, ho, hn, hc, he]
  rw [step, requestEject_sent (s := s.setFiche _) _ rfl hr]
  by_cases h : evaluateOutcome f.map f.voidCount s.profile = .complete <;>
    simp [Clauses.closingMade, FicheOutcome.closingStack, h, EjectStack.stack]

/-- The closing step's conditions fail (R18). -/
theorem closingStep_not_due (h : s.job.state ≠ .closing
    ∨ s.job.fiche.any (fun f => f.openingMet && f.outcome.isNone) = false
    ∨ s.intake.contexts ≠ [] ∨ s.engine.state ≠ .idle) : closingStep s = s := by
  unfold closingStep
  split
  · rfl
  · rename_i f hf
    dsimp only
    rw [if_neg]
    rintro ⟨hj, ho, hn, hc, he⟩
    simp [hf, hj, ho, hn, hc, he] at h

/-- The completions of a job that closes, before the closing EJECT and without NO_STOCK: none is due. -/
theorem completeJob_not_due (hf : s.job.fiche = some f) (hj : s.job.state ≠ .ending ∧ s.job.state ≠ .faulted)
    (ho : f.outcome = none) : completeJob s = s := by
  unfold completeJob
  split <;> simp_all [closingEjectRequested, completeNoStock]

/-- The closing step's outcome is one of R19's three. -/
theorem evaluateOutcome_ofClosing (map : List Cell) (voids : Nat) (p : Profile) :
    (evaluateOutcome map voids p).ofClosing = true := by
  unfold evaluateOutcome
  (repeat' split) <;> rfl

/-- Once the closing EJECT is requested the job completes with the card EMPTY and nothing under way (R20). -/
theorem completeJob_not_quiet (hf : s.job.fiche = some f) (hj : s.job.state = .closing)
    (ho : (f.outcome.map FicheOutcome.ofClosing).getD false = true) (ht : transportQuiet s.transport = false) :
    completeJob s = s := by
  simp [completeJob, closingEjectRequested, hf, hj, ho, ht]

/-- After the closing step of a card at rest the EJECT is under way, so the job waits (R20). -/
theorem completeJob_closingMade (hj : s.job.state = .closing) :
    completeJob (Clauses.closingMade f s) = Clauses.closingMade f s :=
  completeJob_not_quiet (f := { f with
      outcome := some (evaluateOutcome f.map f.voidCount s.profile)
      stack := some (if evaluateOutcome f.map f.voidCount s.profile = .complete then .accept else .reject) })
    rfl hj (evaluateOutcome_ofClosing ..) rfl

theorem closeFiche_eq (f : Fiche) (s : State) : closeFiche f s = Clauses.closedWithFclosed f s := by
  simp [closeFiche, Clauses.closedWithFclosed, State.setFiche, State.setJob]
  rfl

/-- ENDING goes on while a command is under way or the card is not EMPTY (R25). -/
theorem completeEnding_not_quiet (h : transportQuiet s.transport = false) : completeEnding s = s := by
  simp [completeEnding, h]

theorem completeEnding_awaits_stop {p : StopPurpose} (h : s.job.onStop = some p) : completeEnding s = s := by
  simp [completeEnding, h]

/-! ### No line start is due -/

/-- No line start is due of an engine that is in none of EXPOSING and FLOODING (R71). -/
theorem dueLineStart_other_state (h : s.engine.state ≠ .exposing) (h' : s.engine.state ≠ .flooding) :
    dueLineStart s = s := by
  unfold dueLineStart
  (repeat' split) <;> simp_all

/-- No line start is due in a job state that allows none (R71). -/
theorem dueLineStart_no_job (h : s.job.state = .opening ∨ s.job.state = .idle ∨ s.job.state = .faulted) :
    dueLineStart s = s := by
  unfold dueLineStart mayDrive
  rcases h with h | h | h <;> simp [h] <;> split <;> rfl

/-- No line start is due while the card is not at a cell (R71). -/
theorem dueLineStart_not_at_cell (h : s.transport.card ≠ .atCell) : dueLineStart s = s := by
  unfold dueLineStart mayDrive
  split <;> simp [h]

/-! ### The tests by job state -/

/-- The opening is met in OPENING and CLOSING only, by a LOADED card and a READY head, once, before any outcome (R13). -/
theorem meetOpening_not_due (h : opens s = false) : meetOpening s = s := by
  unfold meetOpening
  split <;> simp [h]

theorem opens_other_state (h : s.job.state ≠ .opening) (h' : s.job.state ≠ .closing) : opens s = false := by
  simp [opens, h, h']

theorem opens_of_met (hf : s.job.fiche = some f) (h : f.openingMet = true ∨ f.outcome ≠ none) : opens s = false := by
  cases ho : f.outcome <;> simp_all [opens]

theorem opens_not_loaded (h : s.transport.card ≠ .loaded) : opens s = false := by simp [opens, h]

/-- The stop signal is taken once the engine is IDLE (R87). -/
theorem takeStopSignal_awaits (h : s.engine.state ≠ .idle) : takeStopSignal s = s := by
  unfold takeStopSignal
  split <;> simp [h]

/-- In ENDING what is left to find is the stop signal, the end of ENDING and a line start. -/
theorem jobTests_ending (h : s.job.state = .ending) (hd : s.job.fopenedDue = false) :
    jobTests s = dueLineStart (completeEnding (takeStopSignal s)) := by
  unfold jobTests
  rw [meetOpening_not_due (opens_other_state (by simp [h]) (by simp [h])), composeFopened_not_due (by simp [hd]),
    closingStep_not_due (by simp [h])]
  simp [completeJob, h]

/-- In ENDING, with a command under way or the card not EMPTY and not at a cell, nothing is due. -/
theorem jobTests_ending_busy (h : s.job.state = .ending) (hd : s.job.fopenedDue = false) (ho : s.job.onStop = none)
    (ht : transportQuiet s.transport = false) (hl : s.transport.card ≠ .atCell ∨ s.engine.exposure = none) :
    jobTests s = s := by
  rw [jobTests_ending h hd, takeStopSignal_none ho, completeEnding_not_quiet ht]
  exact hl.elim dueLineStart_not_at_cell dueLineStart_no_exposure

/-- In FAULTED, with no stop awaited, FCLOSED may fall due. -/
theorem jobTests_faulted (h : s.job.state = .faulted) (hd : s.job.fopenedDue = false) (ho : s.job.onStop = none) :
    jobTests s = dueLineStart (completeJob s) := by
  unfold jobTests
  rw [takeStopSignal_none ho, meetOpening_not_due (opens_other_state (by simp [h]) (by simp [h])),
    composeFopened_not_due hd, closingStep_not_due (by simp [h])]

/-- In CLOSING, with the opening's conditions not just met: the closing step and a completion. -/
theorem jobTests_closing (hd : s.job.fopenedDue = false) (ho : s.job.onStop = none) (hm : opens s = false) :
    jobTests s = dueLineStart (completeJob (closingStep s)) := by
  unfold jobTests
  rw [takeStopSignal_none ho, meetOpening_not_due hm, composeFopened_not_due hd]

/-! ### Small equations -/

theorem exec_conclude {after : Option State} {u : State} (h : after = some u) :
    conclude s after = .next (linkFinish s u) := by rw [h]; rfl

theorem conclude_not_due {after : Option State} (h : after = none) : conclude s after = .next s := by rw [h]; rfl

end Sys2Proof.Machine
end

section
/-!
PROOFS. O24, O34, O37, O48: a FOPEN's judgement and take, the page records' judgement, the take of a PHEAD, a frame's
result.
-/

open Sys2Proof

namespace Sys2Proof.Machine

variable {s : State} {r : Record}

/-! ### FOPEN (O24) -/

theorem exec_fopen_refused {code : RefusalCode} (hr : headRecord .fopen s = some r) (hs : slotFree s .job = true)
    (hj : judgeFopen r s = .inl code) : exec .fopen s = .next (linkFinish s (refuse .job r code s)) :=
  exec_conclude (by simp [offerFopen, hr, hs, hj])

theorem exec_fopen_taken {f : FopenFields} (hr : headRecord .fopen s = some r) (hs : slotFree s .job = true)
    (hj : judgeFopen r s = .inr f) : exec .fopen s = .next (linkFinish s (takeFopen r f s)) :=
  exec_conclude (by simp [offerFopen, hr, hs, hj])

theorem fopenOpensAFiche : Clauses.FopenOpensAFiche := by
  intro s r f hr hs hj hf hp ho hc hi hpr p l
  have judged : judgeFopen r s = .inr f := by simp [judgeFopen, hj, hf, Nat.not_lt.mpr hp, ho, hc]
  rw [exec_fopen_taken hr hs judged, takeFopen]
  dsimp only
  rw [requestMotion_sent (by simpa using hi) (by simpa using hpr) (by simp [Motion.sendable, hc])]
  rfl

theorem fopenRefusalsInOrder : Clauses.FopenRefusalsInOrder := by
  intro s r hr
  refine ⟨fun hs => conclude_not_due (by simp [offerFopen, hr, hs]),
    fun hs => ⟨fun hj => ?_, fun hj => ?_, fun hj => ?_⟩⟩
  · exact exec_fopen_refused hr hs (by simp [judgeFopen, hj])
  · refine exec_fopen_refused hr hs ?_
    simp only [List.mem_cons, List.not_mem_nil, or_false] at hj
    rcases hj with h | h | h | h <;> simp [judgeFopen, h]
  · refine ⟨fun hbad => exec_fopen_refused hr hs ?_, fun hlen hprof => ⟨fun ho => ?_, fun ho hc => ?_⟩⟩
    · by_cases hlen : r.payload.length = 5
      · have : 7 < byteAt r.payload 0 := hbad.resolve_left (not_not_intro hlen)
        simp [judgeFopen, hj, readFopen, hlen, this]
      · simp [judgeFopen, hj, readFopen, hlen]
    · exact exec_fopen_refused hr hs (by simp [judgeFopen, hj, readFopen, hlen, Nat.not_lt.mpr hprof, ho])
    · exact exec_fopen_refused hr hs (by simp [judgeFopen, hj, readFopen, hlen, Nat.not_lt.mpr hprof, ho, hc])

/-- Settles O24: the take writes the record, the pins and the LOAD; the refusals follow the judgement's order. -/
theorem fopenIsTakenOrRefused : Obligations.FopenIsTakenOrRefused := ⟨fopenOpensAFiche, fopenRefusalsInOrder⟩

/-! ### Page records against the job state (O34) -/

/-- An offered page record is refused where the job state refuses it; with the link interface's slot occupied it
waits. -/
theorem pageRecord_judged {c : Instr}
    (hc : (c = .phead ∧ headRecord .phead s = some r ∧ s.intake.pheadChecked = false) ∨
      (c = .pheadTake ∧ headRecord .phead s = some r ∧ s.intake.pheadChecked = true ∧ s.intake.state = .pageIdle ∧
        s.intake.contexts.length < 2) ∨
      (c = .pband ∧ headRecord .pband s = some r ∧ s.intake.band = none) ∨
      (c = .pend ∧ headRecord .pend s = some r)) (hx : s.intake.state.examines = true) :
    (slotFree s .link = false → exec c s = .next s) ∧
      ∀ code, slotFree s .link = true → pageRefusal s.job.state = some code →
        exec c s = .next (linkFinish s (refuse .link r code s)) := by
  obtain ⟨rfl, hr, hp⟩ | ⟨rfl, hr, hp, hi, hn⟩ | ⟨rfl, hr, hb⟩ | ⟨rfl, hr⟩ := hc
  · exact ⟨fun hs => conclude_not_due (by simp [examinePhead, pageOffered, hr, hs]),
      fun code hs hj => exec_conclude (by simp [examinePhead, pageOffered, hr, hs, hx, hp, hj])⟩
  · exact ⟨fun hs => conclude_not_due (by simp [takePhead, hr, hs]),
      fun code hs hj => exec_conclude (by simp [takePhead, Config.contextLimit, hr, hs, hp, hi, hn, hj])⟩
  · exact ⟨fun hs => conclude_not_due (by simp [examinePband, pageOffered, hr, hs]),
      fun code hs hj => exec_conclude (by simp [examinePband, pageOffered, hr, hs, hx, hb, hj])⟩
  · exact ⟨fun hs => conclude_not_due (by simp [examinePend, pageOffered, hr, hs]),
      fun code hs hj => exec_conclude (by simp [examinePend, pageOffered, hr, hs, hx, hj])⟩

/-- Settles O34: the judgement of each page record begins with the slot and the job state. -/
theorem pageRecordsAreJudgedByJobState : Obligations.PageRecordsAreJudgedByJobState := by
  intro s r c hc hstate
  have hx : s.intake.state.examines = true := by rcases hstate with h | h | h <;> simp [h, IntakeState.examines]
  obtain ⟨waits, refused⟩ := pageRecord_judged hc hx
  refine ⟨waits, fun hs => ⟨fun h => ?_, fun h => ?_, fun h => ?_⟩⟩
  · exact refused _ hs (by simp [h, pageRefusal])
  · exact refused _ hs (by rcases h with h | h <;> simp [h, pageRefusal])
  · exact refused _ hs (by simp [h, pageRefusal])

/-! ### The take of a PHEAD (O37) -/

/-- The cell that is chosen is FREE (R5, R6). -/
theorem chooseCell_free {l : Layout} {map : List Cell} {t : Target} {cell : Nat} {e : Cell}
    (h : chooseCell l map t = .inr cell) (he : map[cell]? = some e) : e.state = .free := by
  cases t with
  | next =>
    simp only [chooseCell] at h
    split at h
    · cases h
      have := List.find?_some ‹_›
      simp only [isFreeData, he, Bool.and_eq_true, beq_iff_eq] at this
      exact this.1
    · cases h
  | explicit i =>
    simp only [chooseCell] at h
    split at h
    · cases h
    · split at h
      · cases h
        simp_all
      · cases h

theorem moveCell_set {map : List Cell} {i : Nat} {e : Cell} (g : Cell → Cell) (he : map[i]? = some e) :
    moveCell map i e.state g = map.set i (g e) := by simp [moveCell, he]

theorem pheadTakeCreatesTheContext : Clauses.PheadTakeCreatesTheContext := by
  intro s r f g hr hs hp hi hn hj hf hg
  have hjob : pageRefusal s.job.state = none := by rcases hj with h | h <;> simp [h, pageRefusal]
  have hmap : s.frameMap = g.map := by simp [State.frameMap, hg]
  refine ⟨fun code hc => exec_conclude ?_, fun cell e hc he => exec_conclude ?_⟩
  · simp [takePhead, Config.contextLimit, hr, hs, hp, hi, hn, hjob, hf, hmap, hc]
  · have taken : takePhead s = some (takePage cell f s) := by
      simp [takePhead, Config.contextLimit, hr, hs, hp, hi, hn, hjob, hf, hmap, hc]
    have assigned : assignCell cell f.key s = s.setFiche { g with
        map := g.map.set cell { e with state := .assigned, key := f.key } } := by
      simp only [assignCell, hg, ← chooseCell_free hc he, moveCell_set _ he]
    rw [taken, takePage]
    dsimp only
    rw [assigned]
    rfl

theorem admissionRequestsTheMove : Clauses.AdmissionRequestsTheMove := by
  intro s c rest he hc col row x
  have admitted : admitContext s = if openingMet s then requestMove x s
      else s.setEngine { s.engine with state := .waitOpen, exposure := some x } := by
    simp only [admitContext, he, if_true, hc]
    rfl
  refine ⟨fun ho => ?_, fun ho hcard hi hp => ?_⟩
  · rw [admitted, ho]
    rfl
  · rw [admitted, ho, if_pos rfl, requestMove, requestMotion_sent (by simpa using hi) (by simpa using hp)
      (by rcases hcard with h | h <;> simp [Motion.sendable, h])]
    rfl

/-- Settles O37, by the cell choice that the assignment finds FREE and by the engine's admission. -/
theorem pheadTakeCreatesAndAdmitsTheContext : Obligations.PheadTakeCreatesAndAdmitsTheContext :=
  ⟨pheadTakeCreatesTheContext, admissionRequestsTheMove⟩

/-! ### A frame's result (O48) -/

/-- A result enters the record of a cell that is in the state it must be in, where R4's check passes (R9, R10). -/
theorem recordResult_eq {f : Fiche} {e : Cell} {x : Exposure} (res : FrameResult) (hf : s.job.fiche = some f)
    (he : f.map[x.cell]? = some e) (hx : isExposingCell s x.cell = true) :
    recordResult x.cell e.state res s = s.setFiche (Clauses.withResult f e x res) := by
  simp only [recordResult, hf, hx, cellIn, he, beq_self_eq_true, Bool.and_self, if_true, moveCell_set _ he]
  rfl

/-- Settles O48: the record, the report and the wait in FRAME_END. -/
theorem frameResultsAreRecordedAndReported : Obligations.FrameResultsAreRecordedAndReported := by
  intro s old x res f e hf he hold hx u
  subst hold
  have kind : kindInMap (s.setFiche (Clauses.withResult f e x res)) x.cell = e.kind := by
    have hlt : x.cell < f.map.length := (List.getElem?_eq_some_iff.mp he).1
    simp [kindInMap, Clauses.withResult, hlt]
  have report : frameReport (s.setFiche (Clauses.withResult f e x res)) x res =
      { seq := f.seq, cell := x.cell, kind := e.kind, final := res.final, flags := res.flags, holdCount := res.holdCount
        linesExposed := res.linesExposed, linesFlooded := res.linesFlooded, a := res.a, p := res.p
        mMin := x.mMin.getD 0, mMax := x.mMax.getD 0, key := x.key } := by
    rw [frameReport, kind]
    rfl
  have composed : composeSlot .engine (.frame (frameReport (s.setFiche (Clauses.withResult f e x res)) x res))
      (s.setFiche (Clauses.withResult f e x res)) = { u with engine := s.engine } := by
    rw [report, composeSlot_eq_of_link (s := s) _ _ (State.setFiche_link ..),
      show u = Clauses.frameEnded f e x res s from rfl,
      Clauses.frameEnded, composeSlot_eq_of_link (s := s) (t := s) _ _ rfl]
    rfl
  rw [handOver, recordResult_eq res hf he hx]
  dsimp only
  rw [composed]
  rfl

end Sys2Proof.Machine
end

section
/-!
PROOFS. O26: an FCLOSE waits, is refused, or closes the fiche.
-/

open Sys2Proof

namespace Sys2Proof.Machine

variable {s : State} {r : Record}

theorem exec_fclose_refused {code : RefusalCode} (hr : headRecord .fclose s = some r) (hs : slotFree s .job = true)
    (hj : fcloseRefusal s.job.state = some code) : exec .fclose s = .next (linkFinish s (refuse .job r code s)) :=
  exec_conclude (by simp [offerFclose, hr, hs, hj])

theorem exec_fclose_taken (hr : headRecord .fclose s = some r) (hs : slotFree s .job = true)
    (hj : s.job.state = .opening ∨ s.job.state = .opened) :
    exec .fclose s = .next (linkFinish s (takeFclose r s)) :=
  exec_conclude (by rcases hj with h | h <;> simp [offerFclose, hr, hs, h, fcloseRefusal])

/-- What an FCLOSE's end of the page makes of page intake (R56, R58). -/
theorem endOpenPage_eq {i : Intake} (h : Clauses.pageEndedByFclose s.layout.hc s.intake i) :
    endOpenPage s = s.setIntake i := by
  obtain ⟨hst, rfl⟩ | ⟨hst, rfl⟩ | ⟨c, hst, ho, rfl⟩ | ⟨cs, c, hst, ho, hc, hv, rfl⟩ := h
  · rcases hst with h | h <;> simp [endOpenPage, h, State.setIntake]
  · simp [endOpenPage, hst]
  · rcases hst with h | h <;> simp [endOpenPage, h, endPage, ho]
  · have short : (!decide (c.d * c.hd ≤ c.e)) = decide (c.e < c.d * c.hd) :=
      decide_not.symm.trans (decide_eq_decide.mpr Nat.not_le)
    have ended : endPage true s = s.setIntake { s.intake with
        contexts := cs ++ [{ c with
          flags := { c.flags with short := c.flags.short || decide (c.e < c.d * c.hd), noEnd := true }
          pendingLine := none, ended := true }]
        state := if c.placed < s.layout.hc then .fillBottom else .pageIdle } := by
      simp [endPage, ho, hc, Intake.setPage, Context.addFlags, hv, IntakeFlags.union, IntakeFlags.none,
        Context.allArrived, short]
    rcases hst with h | h <;> simp only [endOpenPage, h, ended]

theorem pageEndedByFclose_contexts {hc : Nat} {i i' : Intake} (h : Clauses.pageEndedByFclose hc i i')
    (hn : i.contexts = []) : i'.contexts = [] := by
  obtain ⟨-, rfl⟩ | ⟨-, rfl⟩ | ⟨c, -, -, rfl⟩ | ⟨cs, c, -, -, hc, -⟩ := h
  · exact hn
  · exact hn
  · exact hn
  · simp [hn] at hc

/-- The state in which the job controller's tests find a taken FCLOSE. -/
def fcloseTaken (r : Record) (f : Fiche) (i : Intake) (s : State) : State :=
  removeHead { s with
    job := { s.job with state := .closing, fiche := some { f with closeTag := some r.tag } }
    intake := i }

theorem takeFclose_eq {f : Fiche} {i : Intake} (hf : s.job.fiche = some f)
    (hi : Clauses.pageEndedByFclose s.layout.hc s.intake i) : takeFclose r s = jobTests (fcloseTaken r f i s) := by
  have ended := endOpenPage_eq (s := s.setFiche { f with closeTag := some r.tag }) hi
  simp only [takeFclose, hf, ended]
  rfl

/-- Settles O26: the taken FCLOSE leaves the job in CLOSING, where the tests find the closing step due or nothing. -/
theorem fcloseClosesTheFiche : Obligations.FcloseClosesTheFiche := by
  intro s r hr
  refine ⟨fun hs => conclude_not_due (by simp [offerFclose, hr, hs]), fun hs => ⟨fun h => ?_, fun h => ?_, fun h => ?_,
    fun f i hf hn hd hstop hi => ?_⟩⟩
  · exact exec_fclose_refused hr hs (by simp [h, fcloseRefusal])
  · exact exec_fclose_refused hr hs (by rcases h with h | h <;> simp [h, fcloseRefusal])
  · exact exec_fclose_refused hr hs (by simp [h, fcloseRefusal])
  have hfiche : (fcloseTaken r f i s).job.fiche = some { f with closeTag := some r.tag } := by simp [fcloseTaken]
  have tests : opens (fcloseTaken r f i s) = false →
      jobTests (fcloseTaken r f i s) = dueLineStart (completeJob (closingStep (fcloseTaken r f i s))) :=
    jobTests_closing (by simp [fcloseTaken, hd]) (by simp [fcloseTaken, hstop])
  constructor
  · intro hcase
    have hj : s.job.state = .opening ∨ s.job.state = .opened := hcase.symm.imp (·.1) (·.1)
    have hopen : opens (fcloseTaken r f i s) = false := by
      obtain ⟨-, ho, -⟩ | ⟨-, ho, hcard | hhead, -⟩ := hcase
      · exact opens_of_met hfiche (.inl ho)
      · exact opens_not_loaded (by simpa [fcloseTaken] using hcard)
      · simp [opens, fcloseTaken, hhead]
    have hstep : closingStep (fcloseTaken r f i s) = fcloseTaken r f i s := by
      apply closingStep_not_due
      obtain ⟨-, -, he⟩ | ⟨-, ho, -⟩ := hcase
      · exact .inr (.inr (.inr (by simp [fcloseTaken, he])))
      · exact .inr (.inl (by simp [hfiche, ho]))
    have hstate : s.engine.state ≠ .exposing ∧ s.engine.state ≠ .flooding := by
      obtain ⟨-, -, he⟩ | ⟨-, -, -, he | he⟩ := hcase <;> simp [he]
    rw [exec_fclose_taken hr hs hj, takeFclose_eq hf hi, tests hopen, hstep,
      completeJob_not_due hfiche (by simp [fcloseTaken]) hn,
      dueLineStart_other_state (by simpa [fcloseTaken] using hstate.1) (by simpa [fcloseTaken] using hstate.2)]
    rfl
  · intro hj ho hc he hx hcard hfl hp o
    have hclosing : (fcloseTaken r f i s).job.state = .closing := by simp [fcloseTaken]
    rw [exec_fclose_taken hr hs (.inr hj), takeFclose_eq hf hi, tests (opens_of_met hfiche (.inl ho)),
      closingStep_made hclosing hfiche ho hn
        (by simpa [fcloseTaken] using pageEndedByFclose_contexts hi hc) (by simpa [fcloseTaken] using he)
        (by simpa [fcloseTaken, CardRests] using ⟨hcard, hfl, hp⟩),
      completeJob_closingMade hclosing,
      dueLineStart_no_exposure (by simpa [fcloseTaken, Clauses.closingMade] using hx)]
    rfl

end Sys2Proof.Machine
end

section
/-!
PROOFS. What the ends of a fiche have in common: page intake cleared with the flags carried, the engine told to stop, the
stop signal taken and the card disposed of, a frame ended by the stop.
-/

open Sys2Proof

namespace Sys2Proof.Machine

variable {s : State} {f : Fiche}

/-! ### Page intake cleared -/

/-- The engine after a clearing of page intake with these contexts (R88). -/
def carriedEngine (e : Engine) (contexts : List Context) : Engine :=
  match e.exposure, contexts with
  | some x, c :: _ =>
    if e.state.keepsFlags && x.carried.isNone then { e with exposure := some { x with carried := some c.flags } } else e
  | _, _ => e

theorem carryFlags_eq (s : State) : carryFlags s = s.setEngine (carriedEngine s.engine s.intake.contexts) := by
  cases hx : s.engine.exposure with
  | none =>
    simp only [carryFlags, carriedEngine, hx]
    rfl
  | some x =>
    cases hc : s.intake.contexts with
    | nil =>
      simp only [carryFlags, carriedEngine, hx, hc]
      rfl
    | cons c rest =>
      simp only [carryFlags, carriedEngine, hx, hc]
      split <;> rfl

@[simp] theorem carriedEngine_no_contexts (e : Engine) : carriedEngine e [] = e := by
  unfold carriedEngine
  split <;> simp_all

@[simp] theorem carriedEngine_frame (e : Engine) (cs : List Context) :
    (carriedEngine e cs).state = e.state ∧ (carriedEngine e cs).driven = e.driven ∧
      (carriedEngine e cs).stopping = e.stopping := by
  unfold carriedEngine
  (repeat' split) <;> simp

theorem carriedEngine_no_exposure {e : Engine} (h : e.exposure = none) (cs : List Context) : carriedEngine e cs = e := by
  simp [carriedEngine, h]

theorem carriedEngine_carried {e : Engine} {x : Exposure} (hx : e.exposure = some x) (hc : x.carried.isSome = true)
    (cs : List Context) : carriedEngine e cs = e := by
  unfold carriedEngine
  (repeat' split) <;> simp_all

/-- An engine with a frame or its MOVE in progress keeps the EXPOSING context's flags (R88). -/
theorem carriedEngine_keeps {e : Engine} {x : Exposure} {c : Context} {rest : List Context} (hx : e.exposure = some x)
    (hc : x.carried = none) (hk : e.state.keepsFlags = true) :
    carriedEngine e (c :: rest) = { e with exposure := some { x with carried := some c.flags } } := by
  simp [carriedEngine, hx, hc, hk]

/-- Page intake cleared of its pages and lines; a band in hand and a checked PHEAD aside (R63). -/
def Intake.cleared (i : Intake) : Intake :=
  { i with state := .pageIdle, contexts := [], orphan := none, store := [] }

theorem clearIntake_eq (s : State) : clearIntake s =
    ({ (dropBand s) with engine := carriedEngine s.engine s.intake.contexts } : State).setIntake
      (dropBand s).intake.cleared := by
  unfold clearIntake dropBand
  rw [carryFlags_eq]
  by_cases h : s.intake.band.isSome = true <;> simp only [State.setEngine_intake, h, if_true] <;> rfl

theorem dropBand_none (h : s.intake.band = none) : dropBand s = s := by simp [dropBand, h]

/-- With no band in hand the clearing leaves the link as it is (R63). -/
theorem clearIntake_no_band (h : s.intake.band = none) : clearIntake s =
    { s with intake := s.intake.cleared, engine := carriedEngine s.engine s.intake.contexts } := by
  rw [clearIntake_eq, dropBand_none h]
  rfl

/-! ### The engine told to stop -/

/-- A fiche that ends with the job in ENDING: outcome set, page intake cleared, the stop awaited; the engine not yet
told (R24). -/
def endingOf (f : Fiche) (s : State) : State :=
  { s with
    job := { s.job with state := .ending, fiche := some f, onStop := some .disposal }
    intake := s.intake.cleared
    engine := carriedEngine s.engine s.intake.contexts }

theorem endingActions_eq (hf : s.job.fiche = some f) (hb : s.intake.band = none) :
    endingActions s = stopEngine (endingOf f s) := by
  have : (setJobState .ending (clearIntake s)).setJob { (setJobState .ending (clearIntake s)).job with
      onStop := some .disposal } = endingOf f s := by
    rw [clearIntake_no_band hb, endingOf, ← hf]
    rfl
  rw [← this]
  rfl

/-- An engine whose line is driven completes it first (R85). -/
theorem stopEngine_driven {x : Exposure} (he : s.engine.state = .exposing ∨ s.engine.state = .flooding)
    (hx : s.engine.exposure = some x) (hd : s.engine.driven.isSome = true) :
    stopEngine s = s.setEngine { s.engine with stopping := true } := by
  rcases he with h | h <;> simp [stopEngine, h, hx, hd]

theorem stopEngine_frameEnd (he : s.engine.state = .frameEnd) :
    stopEngine s = s.setEngine { s.engine with stopping := true } := by
  simp [stopEngine, he]

theorem stopEngine_idle (he : s.engine.state = .idle) : stopEngine s = s := by simp [stopEngine, he]

theorem stopEngine_before_frame (he : s.engine.state = .waitOpen ∨ s.engine.state = .moving) :
    stopEngine s = engineToIdle s := by
  rcases he with h | h <;> simp [stopEngine, h]

/-- A frame that holds or lies between two lines ends at once (R85, R86). -/
theorem stopEngine_between_lines {x : Exposure} (he : s.engine.state = .holding ∨
      ((s.engine.state = .exposing ∨ s.engine.state = .flooding) ∧ s.engine.driven = none))
    (hx : s.engine.exposure = some x) :
    stopEngine s = frameEndStopped x (s.setEngine { s.engine with
      holdTimer := if s.engine.state = .holding then none else s.engine.holdTimer }) := by
  obtain h | ⟨h, hd⟩ := he
  · simp [stopEngine, h, hx]
  · have keeps : s.setEngine { s.engine with holdTimer := s.engine.holdTimer } = s := rfl
    rw [if_neg (by rcases h with h | h <;> simp [h]), keeps]
    rcases h with h | h <;> simp [stopEngine, h, hx, hd]

/-! ### The stop signal and the card's disposal -/

/-- The card is on its way to the stage, at rest there or moving on it: ENDING is not at its end. -/
def OnStage (t : Transport) : Prop :=
  t.card ∈ [CardState.loading, .loaded, .atCell, .moving] ∧
    (t.inFlight = none ↔ (t.card = .loaded ∨ t.card = .atCell)) ∧ t.pendingReq = none

theorem CardRests.onStage {t : Transport} (h : CardRests t) : OnStage t := by
  obtain ⟨hc, hi, hp⟩ := h
  exact ⟨by rcases hc with h | h <;> simp [h], by simp [hi, hc], hp⟩

theorem disposed_not_quiet (h : OnStage s.transport) : transportQuiet (Clauses.disposed f s).transport = false := by
  obtain ⟨hc, -, -⟩ := h
  simp only [List.mem_cons, List.not_mem_nil, or_false] at hc
  rcases hc with h | h | h | h <;> simp [Clauses.disposed, h, transportQuiet, Clauses.ejectSent]

theorem disposed_frame (f : Fiche) (s : State) : (Clauses.disposed f s).engine = s.engine ∧
    (Clauses.disposed f s).job.state = s.job.state ∧ (Clauses.disposed f s).job.onStop = s.job.onStop ∧
    (Clauses.disposed f s).job.fopenedDue = s.job.fopenedDue := by
  unfold Clauses.disposed
  split <;> simp

/-- The engine has stopped: its signal is taken and the card disposed of (R24 step 3, R87). -/
theorem jobTests_stopped (hj : s.job.state = .ending) (hf : s.job.fiche = some f) (hd : s.job.fopenedDue = false)
    (ho : s.job.onStop = some .disposal) (he : s.engine.state = .idle) (hx : s.engine.exposure = none)
    (ht : OnStage s.transport) :
    jobTests s = Clauses.disposed f { s with job := { s.job with onStop := none } } := by
  have signal : takeStopSignal s = Clauses.disposed f { s with job := { s.job with onStop := none } } := by
    simp only [takeStopSignal, ho, he, if_true]
    exact disposeCard_eq hf ht.2.1 ht.2.2
  rw [jobTests_ending hj hd, signal,
    completeEnding_not_quiet (disposed_not_quiet (s := { s with job := { s.job with onStop := none } }) ht),
    dueLineStart_no_exposure (by simp [disposed_frame, hx])]

/-- The stop is still awaited: nothing is due (R87). -/
theorem jobTests_awaits_stop {p : StopPurpose} (hj : s.job.state = .ending) (hd : s.job.fopenedDue = false)
    (ho : s.job.onStop = some p) (he : s.engine.state ≠ .idle)
    (hl : s.engine.driven.isSome = true ∨ s.engine.state = .frameEnd) : jobTests s = s := by
  rw [jobTests_ending hj hd, takeStopSignal_awaits he, completeEnding_awaits_stop ho]
  obtain h | h := hl
  · exact dueLineStart_driven h
  · exact dueLineStart_other_state (by simp [h]) (by simp [h])

/-! ### A frame ended by the stop -/

/-- The release of a frame whose context a clearing has dropped before leaves the engine IDLE (R82, R88). -/
theorem release_no_context {x : Exposure} (hx : s.engine.exposure = some x) (hn : s.intake.contexts = []) :
    release s = engineToIdle s := by
  have : releaseOnly s = engineToIdle s := by
    unfold releaseOnly dropExposing
    rw [hx, hn]
  rw [release, this]
  simp [admitContext, hn]

/-- A frame that ends under a stop, its flags carried: recorded VOID, reported, and the card disposed of unless the FRAME
has to wait (R24, R82, R86, R87). -/
theorem jobTests_stoppedFrame {x : Exposure} {e : Cell} {k : IntakeFlags} (hj : s.job.state = .ending)
    (hf : s.job.fiche = some f) (hd : s.job.fopenedDue = false) (ho : s.job.onStop = some .disposal)
    (he : f.map[x.cell]? = some e) (hs : e.state = .exposing) (hx : s.engine.exposure = some x)
    (hk : x.carried = some k) (hn : s.intake.contexts = []) (ht : OnStage s.transport) :
    jobTests (frameEndStopped x s) = Clauses.stoppedFrame f e k x s := by
  have hcell : isExposingCell s x.cell = true := by simp [isExposingCell, hx, hk]
  have hres : resultOf s x .void x.flags =
      { final := .void, flags := { intake := k, engine := x.flags }, holdCount := x.holdCount, a := x.a, p := x.p,
        linesExposed := x.linesExposed, linesFlooded := x.linesFlooded } := by
    simp [resultOf, resultIntakeFlags, hk]
  have ended := frameResultsAreRecordedAndReported s .exposing x (resultOf s x .void x.flags) f e hf he hs hcell
  have stopped : frameEndStopped x s = handOver .exposing x (resultOf s x .void x.flags) s := by
    simp only [frameEndStopped, hf, frameEndVoid]
  rw [stopped, ended]
  simp only [Clauses.stoppedFrame, ← hres]
  generalize resultOf s x .void x.flags = r
  split
  · rw [release_no_context (x := x) rfl (by simpa [Clauses.frameEnded] using hn),
      jobTests_stopped (f := Clauses.withResult f e x r) (by simpa [Clauses.frameEnded] using hj) rfl
        (by simpa [Clauses.frameEnded] using hd) (by simpa [Clauses.frameEnded] using ho) rfl rfl
        (by simpa [Clauses.frameEnded] using ht)]
    rfl
  · exact jobTests_awaits_stop (p := .disposal) (by simpa [Clauses.frameEnded] using hj)
      (by simpa [Clauses.frameEnded] using hd) (by simpa [Clauses.frameEnded] using ho) (by simp [Clauses.frameEnded])
      (.inr rfl)

end Sys2Proof.Machine
end

section
/-!
PROOFS. The release of a context and the admission of the one behind it (R82, R83).
-/

open Sys2Proof

namespace Sys2Proof.Machine

variable {s : State} {x : Exposure} {c staged : Context} {rest more : List Context}

/-- The engine IDLE and the EXPOSING context gone; its page goes on without it where it is open (R56, R82). -/
def released (c : Context) (rest : List Context) (s : State) : State :=
  { s with
    intake := { s.intake with
      contexts := rest
      orphan := if rest = [] ∧ c.ended = false ∧ c.voided = false then some c else s.intake.orphan }
    engine := Clauses.idled s.engine }

theorem releaseOnly_eq (hx : s.engine.exposure = some x) (hc : x.carried = none) (hn : s.intake.contexts = c :: rest) :
    releaseOnly s = released c rest s := by
  have orphan : orphanAfter s.intake c rest
      = if rest = [] ∧ c.ended = false ∧ c.voided = false then some c else s.intake.orphan := by
    simp [orphanAfter, and_assoc]
  simp only [releaseOnly, dropExposing, hx, hn, hc, Option.isSome_none, Bool.false_eq_true, if_false, orphan]
  rfl

theorem release_eq (hx : s.engine.exposure = some x) (hc : x.carried = none) (hn : s.intake.contexts = c :: rest) :
    release s = admitContext (released c rest s) := by rw [release, releaseOnly_eq hx hc hn]

/-- With none behind it the released context leaves the engine IDLE (R82). -/
theorem release_last (hx : s.engine.exposure = some x) (hc : x.carried = none) (hn : s.intake.contexts = [c]) :
    release s = released c [] s := by
  rw [release_eq hx hc hn]
  simp [admitContext, released]

/-- The MOVE of a context that an engine admits after the opening (R66, R68). -/
def moveSent (c : Context) (s : State) : State :=
  { s with
    engine := { s.engine with state := .moving, exposure := some (exposureOf s.layout c) }
    transport := { s.transport with
      card := .moving
      inFlight := some
        { number := s.transport.nextNumber
          motion := .move c.cell (exposureOf s.layout c).x (exposureOf s.layout c).y }
      timer := none, nextNumber := s.transport.nextNumber + 1, position := none } }

theorem admitContext_sent (he : s.engine.state = .idle) (hn : s.intake.contexts = c :: rest) (ho : openingMet s = true)
    (hr : CardRests s.transport) : admitContext s = moveSent c s :=
  (admissionRequestsTheMove s c rest he hn).2 ho hr.1 hr.2.1 hr.2.2

/-- A context behind the released one is promoted and its MOVE sent (R83). -/
theorem release_promotes (hx : s.engine.exposure = some x) (hc : x.carried = none)
    (hn : s.intake.contexts = c :: staged :: more) (ho : openingMet s = true) (hr : CardRests s.transport) :
    release s = moveSent staged (released c (staged :: more) s) := by
  rw [release_eq hx hc hn]
  exact admitContext_sent (rest := more) rfl rfl ho hr

/-- A page that has ended, or whose context is voided, does not go on without it (R56). -/
theorem released_last_closed (h : c.ended = true ∨ c.voided = true) (s : State) :
    released c [] s = { s with intake := { s.intake with contexts := [] }, engine := Clauses.idled s.engine } := by
  rcases h with h | h <;> simp [released, h]

end Sys2Proof.Machine
end

section
/-!
PROOFS. O29, its first part: the causes that end a fiche, each brought to the one state in which the engine is told to
stop, and the engine's stop by its state.
-/

open Sys2Proof

namespace Sys2Proof.Machine

variable {s base : State} {f : Fiche} {c : Instr} {o : FicheOutcome}

/-! ### The three causes -/

theorem setOutcome_eq (o : FicheOutcome) (hf : s.job.fiche = some f) :
    setOutcome o s = s.setFiche (f.withOutcome o) := by
  simp [setOutcome, hf]

theorem withOutcome_none (hn : f.outcome = none) (o : FicheOutcome) :
    f.withOutcome o = { f with outcome := some o } := by
  simp [Fiche.withOutcome, hn]

theorem endingActions_setOutcome (o : FicheOutcome) (hf : s.job.fiche = some f) (hb : s.intake.band = none) :
    endingActions (setOutcome o s) = stopEngine (endingOf (f.withOutcome o) s) := by
  rw [setOutcome_eq o hf, endingActions_eq (s := s.setFiche _) rfl hb]
  rfl

/-- What a cause has made of the part when the engine is told to stop: the record's outcome is set, the flags carried. -/
def toldToStop (f : Fiche) (s base : State) : State :=
  { base with
    job := { s.job with state := .ending, fiche := some f, onStop := some .disposal }
    engine := carriedEngine s.engine s.intake.contexts }

/-- The job controller closes nothing while it waits for the engine or its opening (R18, R20). -/
theorem jobProceeds_nothing (hf : s.job.fiche = some f) (hn : f.outcome = none) (hd : s.job.fopenedDue = false)
    (hj : s.job.state ∈ [JobState.opening, .opened, .closing])
    (hc : s.job.state = .closing → s.engine.state ≠ .idle) : jobProceeds s = s := by
  simp only [List.mem_cons, List.not_mem_nil, or_false] at hj
  have closing : closingStep s = s := by
    rcases hj with h | h | h
    · exact closingStep_not_due (.inl (by simp [h]))
    · exact closingStep_not_due (.inl (by simp [h]))
    · exact closingStep_not_due (.inr (.inr (.inr (hc h))))
  rw [jobProceeds, composeFopened_not_due hd, closing,
    completeJob_not_due hf (by rcases hj with h | h | h <;> simp [h]) hn]

theorem abortResult_taken (hf : s.job.fiche = some f) (hn : f.outcome = none)
    (hj : s.job.state ∈ [JobState.opening, .opened, .closing]) : abortResult s = .taken := by
  simp only [List.mem_cons, List.not_mem_nil, or_false] at hj
  rcases hj with h | h | h <;> simp [abortResult, h, closingEjectRequested, hf, hn]

theorem endsFiche_of (hf : s.job.fiche = some f) (hn : f.outcome = none)
    (hj : s.job.state ∈ [JobState.opening, .opened, .closing]) : endsFiche s = true := by
  simp only [List.mem_cons, List.not_mem_nil, or_false] at hj
  rcases hj with h | h | h <;> simp [endsFiche, h, hf, hn]

theorem discardPending_none (hp : s.transport.pendingReq = none) : discardPending s = s := by
  simp only [discardPending, hp, reduceCtorEq, if_false]
  rw [← hp]
  rfl

theorem engineSlotCleared_other (h : s.engine.state ≠ .frameEnd) : engineSlotCleared s = s := by
  simp [engineSlotCleared, h]

/-- A taken ABORT (R22, R192). -/
theorem exec_abort_ends {tag : Tag} (hu : s.link.state = .up) (hs : slotFree s .priority = true)
    (hj : s.job.state ∈ [JobState.opening, .opened, .closing]) (hf : s.job.fiche = some f) (hn : f.outcome = none) :
    exec (.abort tag) s = .next (linkFinish s (jobTests (stopEngine
      (toldToStop { f with outcome := some .aborted } s { s with
      link := { (composeSlot .priority (.aborted { tag := tag, result := .taken, seq := s.ficheSeq }) s).link with
        inbound := [], counter := min 16 (s.link.counter + s.link.inbound.length) }
      intake :=
        { state := .pageIdle, contexts := [], orphan := none, store := [], band := none
          pheadChecked := false } })))) := by
  have taken : takeAbort tag (abortFlow tag) s = abortTaken
      (composeSlot .priority (.aborted { tag := tag, result := .taken, seq := s.ficheSeq }) s) := by
    simp [takeAbort, hs, abortResult_taken hf hn hj]
  have answered := composeSlot_eq_of_link (s := s) (t := s) .priority
    (.aborted { tag := tag, result := .taken, seq := s.ficheSeq }) rfl
  simp only [exec, execAbort, State.linkUp, hu, beq_self_eq_true, if_true]
  rw [taken, abortTaken, setOutcome_eq (f := f) _ (by simpa using hf), withOutcome_none hn,
    endingActions_eq (f := { f with outcome := some .aborted }) (by simp) (by simp [flushInbound, raiseCounter])]
  congr 4
  rw [answered]
  simp [endingOf, toldToStop, flushInbound, raiseCounter, Intake.cleared, Config.creditLimit]

/-- A RESET SOFT ends a fiche that is OPENING, OPEN or CLOSING (R33); page intake is cleared before, with the flags
carried. -/
theorem softResetBlocks_ends (hj : s.job.state ∈ [JobState.opening, .opened, .closing]) (hf : s.job.fiche = some f)
    (hb : s.intake.band = none) (hp : s.transport.pendingReq = none) :
    softResetBlocks s = stopEngine (toldToStop (f.withOutcome .reset) s { s with
      intake := s.intake.cleared, head := { s.head with overActive := false, underActive := false } }) := by
  have reset : ∀ {again u}, u.job.state = s.job.state → softResetJob again u = endingActions (setOutcome .reset u) := by
    intro again u hu
    simp only [List.mem_cons, List.not_mem_nil, or_false] at hj
    rcases hj with h | h | h <;> simp only [softResetJob, hu, h]
  have alerts : discardPending (clearAlerts s) = clearAlerts s := discardPending_none (by simpa using hp)
  rw [softResetBlocks, alerts, reset (by simp), endingActions_setOutcome (f := f) _ (by simpa using hf),
    clearIntake_no_band (s := clearAlerts s) (by simpa using hb)]
  · simp [endingOf, toldToStop, Intake.cleared, clearAlerts]
  · rw [clearIntake_no_band (s := clearAlerts s) (by simpa using hb)]
    simpa [Intake.cleared] using hb

/-- Link loss ends a fiche that is OPENING, OPEN, or CLOSING before the closing EJECT (R29). -/
theorem takeLinkLoss_ends (hj : s.job.state ∈ [JobState.opening, .opened, .closing]) (hf : s.job.fiche = some f)
    (hc : closingEjectRequested s = false) (hb : s.intake.band = none) :
    takeLinkLoss s = stopEngine (toldToStop (f.withOutcome .linkLost) s { s with intake := s.intake.cleared }) := by
  have lost : takeLinkLoss s = endingActions (setOutcome .linkLost s) := by
    simp only [List.mem_cons, List.not_mem_nil, or_false] at hj
    rcases hj with h | h | h <;> simp [takeLinkLoss, h, hc]
  rw [lost, endingActions_setOutcome _ hf hb]
  rfl

theorem closingEjectRequested_none (hf : s.job.fiche = some f) (hn : f.outcome = none) :
    closingEjectRequested s = false := by
  simp [closingEjectRequested, hf, hn]

/-- While the link is not UP an event ends without a credit or a transmission (R202). -/
theorem linkFinish_not_up {s0 : State} (h : s.link.state ≠ .up) : linkFinish s0 s = s := by
  have up : s.linkUp = false := by simpa [State.linkUp] using h
  have credit : creditIfDue s0.link.counter s = s := by simp [creditIfDue, up]
  rw [linkFinish, credit]
  unfold beginTransmission
  split <;> simp [up]

/-- Each cause tells the engine to stop with the outcome set, in the state the statements name (R22, R29, R33). -/
theorem exec_ends (h : Clauses.endsTheFiche c o s base) (hj : s.job.state ∈ [JobState.opening, .opened, .closing])
    (hf : s.job.fiche = some f) (hn : f.outcome = none) (hd : s.job.fopenedDue = false)
    (hp : s.transport.pendingReq = none) (he : s.engine.state ≠ .frameEnd ∨ ∃ tag, c = .abort tag)
    (hc : s.job.state = .closing → s.engine.state ≠ .idle) :
    exec c s = .next (linkFinish s (jobTests (stopEngine (toldToStop { f with outcome := some o } s base)))) := by
  obtain ⟨tag, rfl, rfl, hu, hs, rfl⟩ | ⟨tag, rfl, rfl, hu, rfl⟩ | ⟨cause, rfl, rfl, hu, rfl⟩ := h
  · exact exec_abort_ends hu hs hj hf hn
  · have he : s.engine.state ≠ .frameEnd := he.resolve_right (by simp)
    have proceeds : jobProceeds (engineSlotCleared (resetLink .soft tag s)) = resetLink .soft tag s := by
      rw [engineSlotCleared_other (by simpa [resetLink] using he)]
      exact jobProceeds_nothing (f := f) (by simpa [resetLink] using hf) hn (by simpa [resetLink] using hd)
        (by simpa [resetLink] using hj) (by simpa [resetLink] using hc)
    have told := softResetBlocks_ends (s := resetLink .soft tag s) (f := f) (by simpa [resetLink] using hj)
      (by simpa [resetLink] using hf) (by simp [resetLink, flushInbound, raiseCounter]) (by simpa [resetLink] using hp)
    simp only [exec, execResetSoft, State.linkUp, hu, beq_self_eq_true, if_true]
    rw [takeSoftReset, proceeds, told, withOutcome_none hn]
    congr 4
    simp [toldToStop, resetLink, resetDoneOf, endsFiche_of hf hn hj, flushInbound, raiseCounter, Intake.cleared,
      Config.creditLimit, hu]
  · have he : s.engine.state ≠ .frameEnd := he.resolve_right (by simp)
    have proceeds : jobProceeds (engineSlotCleared (linkDown cause s)) = linkDown cause s := by
      rw [engineSlotCleared_other (by simpa [linkDown] using he)]
      exact jobProceeds_nothing (f := f) (by simpa [linkDown] using hf) hn (by simpa [linkDown] using hd)
        (by simpa [linkDown] using hj) (by simpa [linkDown] using hc)
    have told := takeLinkLoss_ends (s := linkDown cause s) (f := f) (by simpa [linkDown] using hj)
      (by simpa [linkDown] using hf) (closingEjectRequested_none (f := f) (by simpa [linkDown] using hf) hn)
      (by simp [linkDown])
    simp only [exec, execLossOfSignal, hu, if_false]
    rw [proceeds, told, withOutcome_none hn, linkFinish_not_up (by
      simp only [jobTests_frame, stopEngine_frame, toldToStop]
      cases cause <;> simp)]
    cases cause <;> rfl

/-- The causes leave the card alone, and page intake cleared. -/
theorem endsTheFiche_base (h : Clauses.endsTheFiche c o s base) :
    base.transport = s.transport ∧ base.engine = s.engine ∧ base.tables = s.tables ∧ base.intake.contexts = [] := by
  obtain ⟨_, -, -, -, -, rfl⟩ | ⟨_, -, -, -, rfl⟩ | ⟨_, -, -, -, rfl⟩ := h <;> exact ⟨rfl, rfl, rfl, rfl⟩

/-! ### The engine at the stop, by its state (O29) -/

theorem idled_carried (e : Engine) (cs : List Context) : Clauses.idled (carriedEngine e cs) = Clauses.idled e := by
  unfold carriedEngine
  (repeat' split) <;> rfl

/-- A frame's end reads of the engine its latched values alone. -/
theorem frameEnded_of_engine {a b : State} {e : Cell} {x : Exposure} {r : FrameResult}
    (h : a = { b with engine := a.engine })
    (he : ({ a.engine with state := .frameEnd, exposure := some x, holdTimer := none, driven := none } : Engine)
      = { b.engine with state := .frameEnd, exposure := some x, holdTimer := none, driven := none }) :
    Clauses.frameEnded f e x r a = Clauses.frameEnded f e x r b := by
  have hl : a.link = b.link := by rw [h]
  have hj : a.job = b.job := by rw [h]
  unfold Clauses.frameEnded
  rw [composeSlot_eq_of_link _ _ hl, composeSlot_eq_of_link (s := b) (t := b) _ _ rfl, he, hj, h]

theorem stoppedFrame_of_engine {a b : State} {e : Cell} {x : Exposure} {k : IntakeFlags}
    (h : a = { b with engine := a.engine })
    (he : ({ a.engine with state := .frameEnd, exposure := some x, holdTimer := none, driven := none } : Engine)
      = { b.engine with state := .frameEnd, exposure := some x, holdTimer := none, driven := none }) :
    Clauses.stoppedFrame f e k x a = Clauses.stoppedFrame f e k x b := by
  simp only [Clauses.stoppedFrame, frameEnded_of_engine h he]

/-- An engine without a frame stops at once: the card is disposed of. -/
theorem jobTests_toldToStop_idle (hd : s.job.fopenedDue = false) (ht : base.transport = s.transport)
    (hr : OnStage s.transport) {e : Engine}
    (he : (s.engine.state = .idle ∧ s.engine.exposure = none ∧ e = s.engine) ∨
      ((s.engine.state = .waitOpen ∨ s.engine.state = .moving) ∧ e = Clauses.idled s.engine)) :
    jobTests (stopEngine (toldToStop f s base)) = Clauses.disposed f { base with
      job := { s.job with state := .ending, fiche := some f, onStop := none }, engine := e } := by
  obtain ⟨hi, hx, rfl⟩ | ⟨hi, rfl⟩ := he
  · have engine : (toldToStop f s base).engine = s.engine := carriedEngine_no_exposure hx _
    rw [stopEngine_idle (by simpa [engine] using hi), jobTests_stopped (s := toldToStop f s base) rfl rfl hd rfl
        (by simpa [engine] using hi)
      (by simpa [engine] using hx) (by simpa [toldToStop, ht] using hr)]
    simp only [engine]
    rfl
  · rw [stopEngine_before_frame (by simpa [toldToStop] using hi),
      jobTests_stopped (s := engineToIdle (toldToStop f s base)) rfl rfl hd rfl rfl rfl
      (by simpa [toldToStop, ht] using hr), ← idled_carried s.engine s.intake.contexts]
    rfl

theorem endingStopsTheEngine : Clauses.EndingStopsTheEngine := by
  intro c o s base f hends hj hf hn hd hcard hfl hp g job
  obtain ⟨ht, heng, -, hctx⟩ := endsTheFiche_base hends
  have hr : OnStage s.transport := ⟨hcard, hfl, hp⟩
  have ends := exec_ends hends hj hf hn hd hp
  constructor
  · intro hcase
    rw [ends (.inl (by rcases hcase with h | h | h <;> simp [h])) (by rcases hcase with h | h | h <;> simp [h])]
    rw [jobTests_toldToStop_idle (e := Clauses.idled s.engine) hd ht hr]
    · rfl
    · obtain ⟨hi, -, hx, ht, hdr, hst⟩ | h := hcase
      · exact .inl ⟨hi, hx, by simp only [Clauses.idled, ← hi, ← hx, ← ht, ← hdr, ← hst]⟩
      · exact .inr ⟨h, rfl⟩
  intro x ctx rest hx hxc hc x1
  have engine : s.engine.state.keepsFlags = true →
      (toldToStop g s base).engine = { s.engine with exposure := some x1 } := fun keeps => by
    simp only [toldToStop, hc]
    exact carriedEngine_keeps hx hxc keeps
  refine ⟨fun hcase => ?_, fun e he hs hstop hcase => ?_⟩
  · have engine := engine (by rcases hcase with ⟨h | h, -⟩ | ⟨h, -⟩ <;> simp [h, EngineState.keepsFlags])
    have told : stopEngine (toldToStop g s base) = (toldToStop g s base).setEngine
        { (toldToStop g s base).engine with stopping := true } := by
      obtain ⟨h, hdr⟩ | ⟨h, -⟩ := hcase
      · exact stopEngine_driven (x := x1) (by simpa [engine] using h) (by simp [engine]) (by simpa [engine] using hdr)
      · exact stopEngine_frameEnd (by simpa [engine] using h)
    have waits : jobTests (stopEngine (toldToStop g s base)) = stopEngine (toldToStop g s base) := by
      rw [told]
      exact jobTests_awaits_stop (p := .disposal) rfl hd rfl
        (by rcases hcase with ⟨h | h, -⟩ | ⟨h, -⟩ <;> simp [engine, h])
        (hcase.imp (fun h => by simpa [engine] using h.2) (fun h => by simpa [engine] using h.1))
    rw [ends (hcase.imp (fun h => by rcases h with ⟨h | h, -⟩ <;> simp [h]) (·.2))
      (by rcases hcase with ⟨h | h, -⟩ | ⟨h, -⟩ <;> simp [h]), waits, told, engine]
    rfl
  · have engine := engine (by rcases hcase with h | ⟨h | h, -⟩ <;> simp [h, EngineState.keepsFlags])
    have stopped : jobTests (stopEngine (toldToStop g s base)) = Clauses.stoppedFrame g e ctx.flags x1
        { base with job := job g (some .disposal) } := by
      rw [stopEngine_between_lines (x := x1) (by simpa [engine] using hcase) (by simp [engine]),
        jobTests_stoppedFrame (s := (toldToStop g s base).setEngine _) (f := g) (x := x1) (k := ctx.flags) rfl rfl hd rfl
          he hs (by simp [engine]) rfl hctx (by simpa [toldToStop, ht] using hr)]
      exact stoppedFrame_of_engine rfl (by simp [engine, heng])
    rw [ends (.inl (by rcases hcase with h | ⟨h | h, -⟩ <;> simp [h]))
      (by rcases hcase with h | ⟨h | h, -⟩ <;> simp [h]), stopped]

end Sys2Proof.Machine
end

section
/-!
PROOFS. O22 and O28: link loss and ABORT.
-/

open Sys2Proof

namespace Sys2Proof.Machine

variable {s base : State} {f : Fiche} {c : Instr} {o : FicheOutcome}

/-- The disposal of a card at rest sends EJECT REJECT (R24 step 3). -/
theorem disposed_rests (f : Fiche) (h : s.transport.card = .loaded ∨ s.transport.card = .atCell) :
    Clauses.disposed f s = { s with
      job := { s.job with fiche := some { f with stack := some .reject } }
      transport := Clauses.ejectSent .reject s.transport } := by
  rcases h with h | h <;> simp [Clauses.disposed, h]

/-- A job that is IDLE, or FAULTED with its fiche closed, has nothing to proceed with (R182, R193). -/
theorem jobProceeds_at_rest (hd : s.job.fopenedDue = false) (h : s.job.state = .idle ∨
    (s.job.state = .faulted ∧ ∃ f, s.job.fiche = some f ∧ f.closed = true)) : jobProceeds s = s := by
  rw [jobProceeds, composeFopened_not_due hd]
  obtain hj | ⟨hj, f, hf, hc⟩ := h
  · rw [closingStep_not_due (.inl (by simp [hj]))]
    simp [completeJob, hj]
  · rw [closingStep_not_due (.inl (by simp [hj]))]
    simp [completeJob, hj, hf, hc]

/-! ### Link loss (O22) -/

/-- An emptied link is in order (R182). -/
theorem linkDown_linkOk (cause : LossCause) (s : State) : LinkOk (linkDown cause s) := by
  constructor <;> simp [linkDown]

/-- A link that is not UP holds nothing but its indicator and last refusal code (R182). -/
theorem LinkOk.emptied (h : LinkOk s) (hu : s.link.state ≠ .up) :
    s.link =
      { state := s.link.state, inbound := [], counter := 0, windowOpen := false, reports := [],
        inTransmission := none, slots := [], overflow := s.link.overflow, lastRefusal := s.link.lastRefusal } ∧
      s.intake.band = none ∧ s.intake.pheadChecked = false := by
  obtain ⟨hin, hrep, hslots, htx, hcnt, hwin⟩ := h.not_up hu
  refine ⟨?_, ?_, ?_⟩
  · rw [← hin, ← hrep, ← hslots, ← htx, ← hcnt, ← hwin]
  · simpa [hin] using h.band_head
  · simpa [hin] using h.phead_head

theorem lossOfSignalEmptiesTheLink : Clauses.LossOfSignalEmptiesTheLink := by
  intro cause s hdown
  have exec_loss : exec (.lossOfSignal cause) s
      = .next (jobTests (takeLinkLoss (jobProceeds (engineSlotCleared (linkDown cause s))))) := by
    simp [exec, execLossOfSignal, hdown]
  refine ⟨⟨_, exec_loss, ?_⟩, fun hj hd ho he => ?_⟩
  · have hcleared : LinkOk (engineSlotCleared (linkDown cause s)) := by
      unfold engineSlotCleared
      split
      · exact release_linkOk (linkDown_linkOk cause s)
      · exact linkDown_linkOk cause s
    have hproceeds := jobProceeds_linkOk hcleared
    have frame : ∀ u : State, (takeLinkLoss u).link.state = u.link.state ∧
        (takeLinkLoss u).link.overflow = u.link.overflow ∧ (takeLinkLoss u).link.lastRefusal = u.link.lastRefusal := by
      intro u
      unfold takeLinkLoss
      (repeat' split) <;> simp
    have slot : ∀ u : State, (engineSlotCleared u).link = u.link := by
      intro u
      unfold engineSlotCleared
      split <;> simp
    have hok : LinkOk (jobTests (takeLinkLoss (jobProceeds (engineSlotCleared (linkDown cause s))))) := by
      refine jobTests_linkOk ?_
      unfold takeLinkLoss
      (repeat' split) <;> first
        | exact hproceeds
        | exact endingActions_linkOk (hproceeds.frame (by simp) (by simp))
    have state : (jobTests (takeLinkLoss (jobProceeds (engineSlotCleared (linkDown cause s))))).link.state
        = stateAfterLoss cause := by simp [frame, slot, linkDown]
    obtain ⟨link, band, phead⟩ := hok.emptied (by rw [state]; cases cause <;> simp [stateAfterLoss])
    refine ⟨?_, band, phead⟩
    rw [link, state]
    simp [frame, slot, linkDown]
    cases cause <;> rfl
  · have nothing : jobProceeds (engineSlotCleared (linkDown cause s)) = linkDown cause s := by
      rw [engineSlotCleared_other (by simp [linkDown, he])]
      exact jobProceeds_at_rest hd (.inl hj)
    have lost : takeLinkLoss (linkDown cause s) = linkDown cause s := by simp [takeLinkLoss, linkDown, hj]
    rw [exec_loss, nothing, lost, jobTests_idle (by simpa [linkDown] using hj) (by simpa [linkDown] using hd)
      (by simpa [linkDown] using ho)]
    cases cause <;> rfl

/-- A cause from outside that finds an OPEN fiche with an idle engine and its card at rest: EJECT REJECT is sent. -/
theorem exec_ends_at_rest (h : Clauses.endsTheFiche c o s base) (hj : s.job.state = .opened) (hf : s.job.fiche = some f)
    (hn : f.outcome = none) (hd : s.job.fopenedDue = false) (he : s.engine.state = .idle)
    (hx : s.engine.exposure = none) (hr : CardRests s.transport) :
    exec c s = .next (linkFinish s { base with
      job := { s.job with
        state := .ending, onStop := none, fiche := some { f with outcome := some o, stack := some .reject } }
      engine := s.engine
      transport := Clauses.ejectSent .reject s.transport }) := by
  obtain ⟨ht, -⟩ := endsTheFiche_base h
  rw [exec_ends h (by simp [hj]) hf hn hd hr.2.2 (.inl (by simp [he])) (by simp [hj]),
    jobTests_toldToStop_idle hd ht hr.onStage (.inl ⟨he, hx, rfl⟩), disposed_rests _ (by simpa [ht] using hr.1)]
  simp only [ht]

theorem linkLossEndsTheOpenFiche : Clauses.LinkLossEndsTheOpenFiche := by
  intro cause s f hdown hj hf hn _ hd ho he hx _ _ _ hc hi hp
  rw [exec_ends_at_rest (.inr (.inr ⟨cause, rfl, rfl, hdown, rfl⟩)) hj hf hn hd he hx ⟨hc, hi, hp⟩,
    linkFinish_not_up (by cases cause <;> simp), ← ho]
  rfl

/-- Settles O22: the emptied link stays in order through what follows, and the OPEN fiche ends LINK_LOST. -/
theorem linkLossEmptiesTheLinkAndEndsTheFiche : Obligations.LinkLossEmptiesTheLinkAndEndsTheFiche :=
  ⟨lossOfSignalEmptiesTheLink, linkLossEndsTheOpenFiche⟩

/-! ### ABORT (O28) -/

/-- An ABORT that is not TAKEN is answered and nothing else (R22). -/
theorem exec_abort_answered {tag : Tag} {res : AbortResult} (hu : s.link.state = .up) (hs : slotFree s .priority = true)
    (hres : abortResult s = res) (hnot : res ≠ .taken) :
    exec (.abort tag) s = .next (linkFinish s
      (composeSlot .priority (.aborted { tag := tag, result := res, seq := s.ficheSeq }) s)) := by
  simp [exec, execAbort, State.linkUp, hu, takeAbort, hs, hres, hnot]

/-- Settles O28: the answer by the job state; a TAKEN one ends the OPEN fiche. -/
theorem abortIsAnswered : Obligations.AbortIsAnswered := by
  intro tag s hu
  refine ⟨fun hs => ?_, fun hs => ⟨fun h => ?_, fun h => ?_, fun h => ?_, fun h hc => ?_,
    fun f hj hf hn _ hd he hx hc hi hp => ?_⟩⟩
  · simp [exec, execAbort, State.linkUp, hu, takeAbort, hs, dropFrame, abortFlow]
  · exact exec_abort_answered hu hs (by simp [abortResult, h]) (by simp)
  · exact exec_abort_answered hu hs (by simp [abortResult, h]) (by simp)
  · exact exec_abort_answered hu hs (by simp [abortResult, h]) (by simp)
  · exact exec_abort_answered hu hs (by simp [abortResult, h, hc]) (by simp)
  · rw [exec_ends_at_rest (.inl ⟨tag, rfl, rfl, hu, hs, rfl⟩) hj hf hn hd he hx ⟨hc, hi, hp⟩]
    rfl

end Sys2Proof.Machine
end

section
/-!
PROOFS. O29, its other parts, and O31: a LOAD that an ENDING has waited for, a cleared engine slot, a stop under way,
and a RESET SOFT by job state.
-/

open Sys2Proof

namespace Sys2Proof.Machine

variable {s base : State} {f : Fiche} {c : Instr} {o : FicheOutcome}

/-! ### Replies -/

/-- The DONE of the command in flight (R139). -/
theorem exec_done {n : CommandNumber} {m : Motion} (h : s.transport.inFlight = some { number := n, motion := m }) :
    exec (.done n) s = .next (linkFinish s (jobTests (motionDone { number := n, motion := m } s))) :=
  exec_conclude (by simp [takeDone, h])

/-- The card's state once a command is done, before its requester is told (R140). -/
def arrived (m : Motion) (s : State) : State :=
  s.setTransport { s.transport with
    timer := none, inFlight := none, card := m.cardDone, position := m.positionDone
    faultCode := if m = .home then .noFault else s.transport.faultCode }

theorem motionDone_eq (k : InFlight) (s : State) :
    motionDone k s = takePending (tellDone k.motion (arrived k.motion s)) := rfl

theorem loadDoneInEndingEjects : Clauses.LoadDoneInEndingEjects := by
  intro s n f hi hp hj hf hd ho
  have told : tellDone .load (arrived .load s) = { s with
      job := { s.job with fiche := some { f with stack := some .reject } }
      transport := { s.transport with
        card := .ejecting, inFlight := some { number := s.transport.nextNumber, motion := .eject .reject }
        timer := none, nextNumber := s.transport.nextNumber + 1, position := none } } := by
    have : tellDone .load (arrived .load s) = requestEject .reject (arrived .load s) := by
      simp [tellDone, arrived, hj, ho, hf]
    rw [this, requestEject_sent (s := arrived .load s) _ hf ⟨.inl rfl, rfl, hp⟩]
    rfl
  rw [exec_done hi, motionDone_eq, told, takePending_none (by exact hp),
    jobTests_ending_busy (by exact hj) (by exact hd) (by exact ho) rfl (.inl (by simp))]

/-! ### The blocks at a RESET SOFT and at link loss (R29, R33) -/

/-- The part when a RESET SOFT reaches the job controller, with an engine that has no flags to keep (R63, R135, R156). -/
def softCleared (s : State) : State :=
  { s with
    intake := s.intake.cleared
    head := { s.head with overActive := false, underActive := false }
    transport := { s.transport with pendingReq := if s.transport.pendingReq = some .home then some .home else none } }

theorem softResetBlocks_eq (hb : s.intake.band = none) (he : carriedEngine s.engine s.intake.contexts = s.engine) :
    softResetBlocks s = softResetJob (s.transport.pendingReq == some (.eject .reject)) (softCleared s) := by
  have pending : discardPending (clearAlerts s) = (clearAlerts s).setTransport { s.transport with
      pendingReq := if s.transport.pendingReq = some .home then some .home else none } := by
    unfold discardPending
    by_cases h : s.transport.pendingReq = some .home
    · simp only [clearAlerts_frame, h, if_true]
      rw [← h]
      rfl
    · simp only [clearAlerts_frame, h, if_false]
  rw [softResetBlocks, pending, clearIntake_no_band (by simpa using hb)]
  simp only [State.setTransport_intake, State.setTransport_engine, clearAlerts_frame, he]
  rfl

/-- In ENDING nothing proceeds while the stop is awaited or the card is busy (R25). -/
theorem jobProceeds_ending (hj : s.job.state = .ending) (hd : s.job.fopenedDue = false)
    (h : transportQuiet s.transport = false ∨ s.job.onStop = some .disposal) : jobProceeds s = s := by
  have complete : completeJob s = completeEnding s := by simp [completeJob, hj]
  rw [jobProceeds, composeFopened_not_due hd, closingStep_not_due (.inl (by simp [hj])), complete]
  exact h.elim completeEnding_not_quiet completeEnding_awaits_stop

theorem exec_resetSoft {tag : Tag} (hu : s.link.state = .up) : exec (.resetSoft tag) s = .next (linkFinish s
    (jobTests (softResetBlocks (jobProceeds (engineSlotCleared (resetLink .soft tag s)))))) := by
  simp [exec, execResetSoft, State.linkUp, hu, takeSoftReset]

theorem exec_loss {cause : LossCause} (hu : s.link.state ≠ .down) : exec (.lossOfSignal cause) s
    = .next (jobTests (takeLinkLoss (jobProceeds (engineSlotCleared (linkDown cause s))))) := by
  simp [exec, execLossOfSignal, hu]

/-- What a RESET SOFT makes of the link and of page intake's notes on the head record (R193). -/
theorem resetLink_soft_eq {tag : Tag} (s : State) : resetLink .soft tag s = { s with
    link := { s.link with
      inbound := [], counter := min 16 (s.link.counter + s.link.inbound.length), windowOpen := true, slots := []
      reports := [.resetDone { tag := tag, option := .soft, priorSeq := s.ficheSeq, ficheEnded := endsFiche s }] }
    intake := { s.intake with band := none, pheadChecked := false } } := rfl

/-! ### A stop under way (O29) -/

/-- With no request pending none is discarded (R156). -/
theorem softCleared_no_pending (hp : s.transport.pendingReq = none) : softCleared s = { s with
    intake := s.intake.cleared, head := { s.head with overActive := false, underActive := false } } := by
  have : ({ s.transport with pendingReq := none } : Transport) = s.transport := by rw [← hp]
  simp only [softCleared, hp, reduceCtorEq, if_false, this]

/-- A RESET SOFT in ENDING, with no request pending, clears page intake and the alert states alone (R33). -/
theorem softResetBlocks_ending (hj : s.job.state = .ending) (hb : s.intake.band = none) (hn : s.intake.contexts = [])
    (hp : s.transport.pendingReq = none) : softResetBlocks s = { s with
      intake := s.intake.cleared, head := { s.head with overActive := false, underActive := false } } := by
  rw [softResetBlocks_eq hb (by simp [hn]), softResetJob, softCleared_no_pending hp]
  simp [hj, hp]

/-- The part with the engine's slot emptied, where no context is left: an engine that waited in FRAME_END is IDLE (R82). -/
def slotEmptied (base : State) : State := if base.engine.state = .frameEnd then engineToIdle base else base

theorem engineSlotCleared_no_context {x : Exposure} (hx : s.engine.exposure = some x) (hn : s.intake.contexts = []) :
    engineSlotCleared s = slotEmptied s := by
  rw [engineSlotCleared, release_no_context hx hn, slotEmptied]

@[simp] theorem slotEmptied_frame (s : State) : (slotEmptied s).job = s.job ∧ (slotEmptied s).intake = s.intake ∧
    (slotEmptied s).transport = s.transport ∧ (slotEmptied s).link = s.link := by
  unfold slotEmptied
  split <;> simp

/-- A RESET SOFT that finds a stop under way (R33, R193). -/
theorem exec_resetSoft_stop {tag : Tag} {x : Exposure} (hu : s.link.state = .up) (hj : s.job.state = .ending)
    (hd : s.job.fopenedDue = false) (ho : s.job.onStop = some .disposal) (hx : s.engine.exposure = some x)
    (hn : s.intake.contexts = []) (hp : s.transport.pendingReq = none) :
    exec (.resetSoft tag) s = .next (linkFinish s (jobTests (slotEmptied { s with
      link := { s.link with
        inbound := [], counter := min 16 (s.link.counter + s.link.inbound.length), windowOpen := true, slots := []
        reports := [.resetDone { tag := tag, option := .soft, priorSeq := s.ficheSeq, ficheEnded := endsFiche s }] }
      intake :=
        { state := .pageIdle, contexts := [], orphan := none, store := [], band := none, pheadChecked := false }
      head := { s.head with overActive := false, underActive := false } }))) := by
  rw [exec_resetSoft hu, resetLink_soft_eq, engineSlotCleared_no_context (x := x) (by exact hx) (by exact hn),
    jobProceeds_ending (by simpa using hj) (by simpa using hd) (.inr (by simpa using ho)),
    softResetBlocks_ending (by simpa using hj) (by simp) (by simpa using hn) (by simpa using hp)]
  simp only [slotEmptied]
  split <;> rfl

/-- A loss of signal that finds a stop under way (R29, R182). -/
theorem exec_loss_stop {cause : LossCause} {x : Exposure} (hu : s.link.state ≠ .down) (hj : s.job.state = .ending)
    (hd : s.job.fopenedDue = false) (ho : s.job.onStop = some .disposal) (hx : s.engine.exposure = some x)
    (hn : s.intake.contexts = []) :
    exec (.lossOfSignal cause) s = .next (jobTests (slotEmptied (linkDown cause s))) := by
  have lost : ∀ u : State, u.job = s.job → takeLinkLoss u = u := fun u hu' => by simp [takeLinkLoss, hu', hj]
  rw [exec_loss hu, engineSlotCleared_no_context (x := x) (by simpa [linkDown] using hx) (by simpa [linkDown] using hn),
    jobProceeds_ending (by simpa [linkDown] using hj) (by simpa [linkDown] using hd)
      (.inr (by simpa [linkDown] using ho)),
    lost _ (by simp [linkDown])]

theorem stopUnderWayContinues : Clauses.StopUnderWayContinues := by
  intro c s base f x hc hj hf hd ho hx hk hn hcard hi hp
  have hr : CardRests s.transport := ⟨hcard, hi, hp⟩
  have reached : base.job = s.job ∧ base.engine = s.engine ∧ base.transport = s.transport ∧
      exec c s = .next (linkFinish s (jobTests (slotEmptied base))) := by
    obtain ⟨tag, rfl, hu, rfl⟩ | ⟨cause, rfl, hu, rfl⟩ := hc
    · exact ⟨rfl, rfl, rfl, exec_resetSoft_stop hu hj hd ho hx hn hp⟩
    · refine ⟨rfl, rfl, rfl, ?_⟩
      rw [exec_loss_stop hu hj hd ho hx hn, linkFinish_not_up (by
        simp only [jobTests_frame, slotEmptied_frame]
        cases cause <;> simp)]
      cases cause <;> rfl
  obtain ⟨hbj, hbe, hbt, hexec⟩ := reached
  refine ⟨fun he hdr => ?_, fun he => ?_⟩
  · have same : slotEmptied base = base := if_neg (by rcases he with h | h <;> simp [hbe, h])
    rw [hexec, same, jobTests_awaits_stop (p := .disposal) (by rw [hbj, hj]) (by rw [hbj, hd]) (by rw [hbj, ho])
      (by rcases he with h | h <;> simp [hbe, h]) (.inl (by rw [hbe, hdr]))]
  · have idle : slotEmptied base = engineToIdle base := if_pos (by rw [hbe, he])
    rw [hexec, idle, jobTests_stopped (s := engineToIdle base) (f := f) (by simp [hbj, hj]) (by simp [hbj, hf])
      (by simp [hbj, hd]) (by simp [hbj, ho]) rfl rfl (by simpa [hbt] using hr.onStage)]
    simp only [engineToIdle, State.setEngine, hbj, hbe]
    rfl

/-! ### A cleared engine slot (O29) -/

/-- The part `s0` in which the job controller proceeds at a RESET SOFT or a link loss, the link emptied (R182, R193), and
what the cause then does to the part `v` that is left. -/
theorem exec_ends_proceeded (h : Clauses.endsTheFiche c o s base) (hna : ∀ tag, c ≠ .abort tag)
    (hj : s.job.state ∈ [JobState.opening, .opened, .closing]) (hf : s.job.fiche = some f) (hn : f.outcome = none) :
    ∃ s0 : State, base = { s0 with intake := s0.intake.cleared, head := base.head } ∧ s0.job = s.job ∧
      s0.engine = s.engine ∧ s0.transport = s.transport ∧ s0.tables = s.tables ∧
      s0.intake = { s.intake with band := none, pheadChecked := false } ∧ (o = .linkLost → base.head = s0.head) ∧
      ∀ (v : State) (g : Fiche), jobProceeds (engineSlotCleared s0) = v → v.link = s0.link → v.head = s0.head →
        v.job.state ∈ [JobState.opening, .opened, .closing] → v.job.fiche = some g → v.intake.band = none →
        v.transport.pendingReq = none →
        (o = .linkLost → closingEjectRequested v = true → exec c s = .next (linkFinish s (jobTests v))) ∧
        (closingEjectRequested v = false ∨ o ≠ .linkLost →
          exec c s = .next (linkFinish s (jobTests (stopEngine (toldToStop (g.withOutcome o) v
            { v with intake := v.intake.cleared, head := base.head }))))) := by
  obtain ⟨tag, rfl, -⟩ | ⟨tag, rfl, rfl, hu, rfl⟩ | ⟨cause, rfl, rfl, hu, rfl⟩ := h
  · exact absurd rfl (hna tag)
  · refine ⟨resetLink .soft tag s, ?_, rfl, rfl, rfl, rfl, rfl, by simp,
      fun v g hv hl hh hj' hg hb ht => ⟨by simp, fun _ => ?_⟩⟩
    · rw [resetLink_soft_eq, endsFiche_of hf hn hj]
      rfl
    · rw [exec_resetSoft hu, hv, softResetBlocks_ends hj' hg hb ht, hh]
      rfl
  · refine ⟨linkDown cause s, ?_, rfl, rfl, rfl, rfl, rfl, fun _ => rfl, fun v g hv hl hh hj' hg hb ht => ?_⟩
    · cases cause <;> rfl
    have down : ∀ u : State, u.link.state = v.link.state → linkFinish s (jobTests u) = jobTests u := fun u hu' =>
      linkFinish_not_up (by
        simp only [jobTests_frame, hu', hl]
        cases cause <;> simp [linkDown, stateAfterLoss])
    refine ⟨fun _ hc => ?_, fun hc => ?_⟩
    · have closing : v.job.state = .closing := by
        simp only [closingEjectRequested, Bool.and_eq_true, beq_iff_eq] at hc
        exact hc.1
      rw [exec_loss hu, hv, down v rfl]
      simp [takeLinkLoss, closing, hc]
    · rw [exec_loss hu, hv, takeLinkLoss_ends hj' hg (hc.resolve_right (by simp)) hb, down _ (by simp [toldToStop])]
      rw [show s.head = v.head from hh.symm]

/-- The transport controller once the context at the front of `rest`, if any, is promoted and its MOVE sent (R83). -/
def promotedMove (rest : List Context) (s : State) : Transport :=
  match rest with
  | [] => s.transport
  | staged :: _ => (moveSent staged s).transport

/-- A cleared engine slot in OPEN: the engine admits what stands behind the released context, or is IDLE, and the fiche
then ends (R24, R82, R83). -/
theorem exec_ends_released {x : Exposure} {ctx : Context} {rest : List Context} (h : Clauses.endsTheFiche c o s base)
    (hna : ∀ tag, c ≠ .abort tag) (hj : s.job.state = .opened) (hf : s.job.fiche = some f) (hn : f.outcome = none)
    (hm : f.openingMet = true) (hd : s.job.fopenedDue = false) (he : s.engine.state = .frameEnd)
    (hx : s.engine.exposure = some x) (hxc : x.carried = none) (hctx : s.intake.contexts = ctx :: rest)
    (hr : CardRests s.transport) :
    exec c s = .next (linkFinish s (Clauses.disposed { f with outcome := some o } { base with
      job := { s.job with state := .ending, fiche := some { f with outcome := some o }, onStop := none }
      engine := Clauses.idled s.engine
      transport := promotedMove rest s })) := by
  obtain ⟨s0, hbase, hj0, he0, ht0, htab, hi0, -, hexec⟩ := exec_ends_proceeded h hna (by simp [hj]) hf hn
  have slot : engineSlotCleared s0 = admitContext (released ctx rest s0) := by
    rw [engineSlotCleared, if_pos (by rw [he0, he]), release_eq (x := x) (by rw [he0, hx]) hxc (by rw [hi0, hctx])]
  have layout : s0.layout = s.layout := State.layout_eq htab
  have ends : ∀ v, admitContext (released ctx rest s0) = v → v.link = s0.link → v.head = s0.head → v.job = s.job →
      v.intake.band = none → v.transport.pendingReq = none → exec c s = .next (linkFinish s (jobTests (stopEngine
        (toldToStop { f with outcome := some o } v { v with intake := v.intake.cleared, head := base.head })))) := by
    intro v hv hl hh hvj hb hp
    have nothing : jobProceeds v = v := jobProceeds_nothing (f := f) (by rw [hvj, hf]) hn (by rw [hvj, hd])
      (by simp [hvj, hj]) (by simp [hvj, hj])
    rw [(hexec v f (by rw [slot, hv, nothing]) hl hh (by simp [hvj, hj]) (by rw [hvj, hf]) hb hp).2
      (.inl (closingEjectRequested_none (f := f) (by rw [hvj, hf]) hn)), withOutcome_none hn]
  cases rest with
  | nil =>
    rw [ends (released ctx [] s0) (by simp [admitContext, released]) rfl rfl hj0 (by simp [released, hi0])
      (by simp [released, ht0, hr.2.2]), jobTests_toldToStop_idle (by simp [released, hj0, hd]) (by rfl)
        (by simpa [released, ht0] using hr.onStage)
      (.inl ⟨rfl, rfl, rfl⟩)]
    simp only [released, hj0, he0, ht0]
    rw [hbase]
    rfl
  | cons staged more =>
    rw [ends (moveSent staged (released ctx (staged :: more) s0)) (admitContext_sent (rest := more) rfl rfl
        (by simp [openingMet, released, hj0, hf, hm]) (by simpa [released, ht0] using hr)) rfl rfl hj0
        (by simp [moveSent, released, hi0]) (by simp [moveSent, released, ht0, hr.2.2]),
      jobTests_toldToStop_idle (by simp [moveSent, released, hj0, hd]) (by rfl)
        (by simp [moveSent, released, ht0, OnStage, hr.2.2]) (.inr ⟨.inr rfl, rfl⟩)]
    simp only [moveSent, show (released ctx (staged :: more) s0).layout = s.layout from layout]
    simp only [released, hj0, he0, ht0]
    rw [hbase]
    rfl

/-- A CLOSING job whose last context has gone makes its closing step when it proceeds (R18, R83). -/
theorem jobProceeds_closing (hj : s.job.state = .closing) (hf : s.job.fiche = some f) (hm : f.openingMet = true)
    (hn : f.outcome = none) (hd : s.job.fopenedDue = false) (hc : s.intake.contexts = []) (he : s.engine.state = .idle)
    (hr : CardRests s.transport) : jobProceeds s = Clauses.closingMade f s := by
  rw [jobProceeds, composeFopened_not_due hd, closingStep_made hj hf hm hn hc he hr, completeJob_closingMade hj]

/-- Once the closing EJECT is sent a CLOSING job has nothing to do before its DONE (R20). -/
theorem jobTests_closingMade (hj : s.job.state = .closing) (hd : s.job.fopenedDue = false) (ho : s.job.onStop = none)
    (hx : s.engine.exposure = none) : jobTests (Clauses.closingMade f s) = Clauses.closingMade f s := by
  rw [jobTests_closing (s := Clauses.closingMade f s) hd ho
      (opens_not_loaded (by simp [Clauses.closingMade, Clauses.ejectSent])),
    closingStep_not_due (.inr (.inl (by simp [Clauses.closingMade]))), completeJob_closingMade hj,
    dueLineStart_no_exposure (s := Clauses.closingMade f s) hx]

/-- A stop taken with the card on its way out: there is nothing to dispose of (R24 step 3). -/
theorem jobTests_stopped_ejecting (hj : s.job.state = .ending) (hd : s.job.fopenedDue = false)
    (ho : s.job.onStop = some .disposal) (he : s.engine.state = .idle) (hx : s.engine.exposure = none)
    (hc : s.transport.card = .ejecting) : jobTests s = s.setJob { s.job with onStop := none } := by
  have signal : takeStopSignal s = s.setJob { s.job with onStop := none } := by
    simp [takeStopSignal, ho, he, disposeCard, hc]
  rw [jobTests_ending hj hd, signal, completeEnding_not_quiet (by simp [transportQuiet, hc]),
    dueLineStart_no_exposure (by simpa using hx)]

/-- A cleared engine slot that leaves a CLOSING job without a context: the closing step is made first (log 10), and a
link loss changes no more, a RESET SOFT makes the job ENDING with the outcome kept (R21, R29, R33). -/
theorem exec_ends_closing {x : Exposure} {ctx : Context} (h : Clauses.endsTheFiche c o s base)
    (hna : ∀ tag, c ≠ .abort tag) (hj : s.job.state = .closing) (hf : s.job.fiche = some f) (hn : f.outcome = none)
    (hm : f.openingMet = true) (hd : s.job.fopenedDue = false) (ho : s.job.onStop = none)
    (he : s.engine.state = .frameEnd) (hx : s.engine.exposure = some x) (hxc : x.carried = none)
    (hctx : s.intake.contexts = [ctx]) (hr : CardRests s.transport) :
    let made := Clauses.closingMade f (released ctx [] s);
    exec c s = .next (linkFinish s { base with
      intake := if o = .linkLost then { made.intake with band := none, pheadChecked := false } else base.intake
      job := { made.job with state := if o = .linkLost then .closing else .ending }
      engine := made.engine
      transport := made.transport }) := by
  intro made
  obtain ⟨s0, hbase, hj0, he0, ht0, htab, hi0, hhead, hexec⟩ := exec_ends_proceeded h hna (by simp [hj]) hf hn
  have slot : engineSlotCleared s0 = released ctx [] s0 := by
    rw [engineSlotCleared, if_pos (by rw [he0, he]), release_last (x := x) (by rw [he0, hx]) hxc (by rw [hi0, hctx])]
  have step : jobProceeds (released ctx [] s0) = Clauses.closingMade f (released ctx [] s0) :=
    jobProceeds_closing (by simp [released, hj0, hj]) (by simp [released, hj0, hf]) hm hn (by simp [released, hj0, hd])
      rfl rfl (by simpa [released, ht0] using hr)
  have profile : (released ctx [] s0).profile = (released ctx [] s).profile := State.profile_eq htab
  obtain ⟨again, ending⟩ := hexec (Clauses.closingMade f (released ctx [] s0)) _ (by rw [slot, step]) rfl rfl
    (by simp [Clauses.closingMade, released, hj0, hj]) rfl (by simp [Clauses.closingMade, released, hi0])
    (by simp [Clauses.closingMade, released, ht0, Clauses.ejectSent, hr.2.2])
  by_cases ho' : o = .linkLost
  · have requested : closingEjectRequested (Clauses.closingMade f (released ctx [] s0)) = true := by
      simp [closingEjectRequested, Clauses.closingMade, released, hj0, hj, evaluateOutcome_ofClosing]
    rw [again ho' requested, jobTests_closingMade (by simp [released, hj0, hj]) (by simp [released, hj0, hd])
      (by simp [released, hj0, ho]) rfl]
    simp only [made, Clauses.closingMade, profile, if_pos ho']
    simp only [released, hj0, he0, ht0, hi0, ← hj]
    rw [hbase, hhead ho']
  · have engine : (Clauses.closingMade f (released ctx [] s0)).engine = Clauses.idled s.engine := by
      simp [Clauses.closingMade, released, he0]
    have kept : carriedEngine (Clauses.idled s.engine) [] = Clauses.idled s.engine := carriedEngine_no_contexts _
    rw [ending (.inr ho'), stopEngine_idle (by simp [toldToStop, engine, Clauses.idled]),
      jobTests_stopped_ejecting rfl (by simp [toldToStop, Clauses.closingMade, released, hj0, hd]) rfl
        (by simp [toldToStop, engine, Clauses.idled])
        (by simp [toldToStop, engine, carriedEngine_no_exposure, Clauses.idled])
        (by simp [toldToStop, Clauses.closingMade, Clauses.ejectSent])]
    simp only [made, toldToStop, Clauses.closingMade, profile, if_neg ho']
    simp only [released, hj0, he0, ht0, hi0, kept, ho, State.setJob, Fiche.withOutcome, Option.getD_some]
    rw [hbase, hi0]
    rfl

theorem clearedEngineSlotReleases : Clauses.ClearedEngineSlotReleases := by
  intro s x ctx rest he hx hxc hctx idle u
  have released : releaseOnly s = u := releaseOnly_eq hx hxc hctx
  have lost : engineSlotLost s = u := by rw [engineSlotLost, if_pos he, released]
  have cleared : engineSlotCleared s = admitContext u := by rw [engineSlotCleared, if_pos he, release, released]
  refine ⟨cleared, lost, fun c o base f hends habort hf hn hm hd ho hcard hi hp => ?_⟩
  have ends := fun hj : s.job.state = .opened =>
    exec_ends_released hends habort hj hf hn hm hd he hx hxc hctx ⟨hcard, hi, hp⟩
  refine ⟨?moves, ?ejects, ?closes⟩
  case moves =>
    intro staged more hj hrest y
    rw [ends hj, hrest, ← ho]
    rfl
  case ejects =>
    intro hj hrest
    rw [ends hj, hrest, disposed_rests _ (by simpa [promotedMove] using hcard), ← ho]
    rfl
  case closes =>
    intro hj hrest o2
    subst hrest
    rw [exec_ends_closing hends habort hj hf hn hm hd ho he hx hxc hctx ⟨hcard, hi, hp⟩]
    rfl

/-- Settles O29: by the cause and the engine's state, through the one state in which the engine is told to stop. -/
theorem terminatingCausesStopTheEngine : Obligations.TerminatingCausesStopTheEngine :=
  ⟨endingStopsTheEngine, loadDoneInEndingEjects, clearedEngineSlotReleases, stopUnderWayContinues⟩

/-! ### RESET SOFT (O31) -/

/-- A RESET SOFT with an idle engine, up to the job controller's part (R33, R193). -/
theorem exec_resetSoft_idle {tag : Tag} (hu : s.link.state = .up) (he : s.engine.state = .idle)
    (hx : s.engine.exposure = none) (hp : jobProceeds (resetLink .soft tag s) = resetLink .soft tag s) :
    exec (.resetSoft tag) s = .next (linkFinish s (jobTests
      (softResetJob (s.transport.pendingReq == some (.eject .reject)) (softCleared (resetLink .soft tag s))))) := by
  rw [exec_resetSoft hu, engineSlotCleared_other (by simp [resetLink_soft_eq, he]), hp,
    softResetBlocks_eq (by rfl) (carriedEngine_no_exposure (by simpa [resetLink_soft_eq] using hx) _)]
  rfl

/-- Settles O31, by the job state. -/
theorem resetSoftKeepsTablesAndHead : Obligations.ResetSoftKeepsTablesAndHead := by
  intro tag s hu he hx hd ho link base
  have reset := exec_resetSoft_idle (tag := tag) hu he hx
  refine ⟨fun f hj hf hi => ?_, fun hp hi => ⟨fun hj => ?_, fun f hj hf hc => ?_, fun f hj hf hn _ hcard => ?_⟩⟩
  · have busy : transportQuiet s.transport = false := by
      obtain ⟨k, hk⟩ := Option.isSome_iff_exists.mp hi
      simp [transportQuiet, hk]
    rw [reset (jobProceeds_ending hj hd (.inl busy))]
    have rests : ∀ u : State, u.job.state = .ending → u.job.fopenedDue = false → u.job.onStop = none →
        u.transport = s.transport → u.engine = s.engine → jobTests u = u := fun u h1 h2 h3 h4 h5 =>
      jobTests_ending_busy h1 h2 h3 (by rw [h4, busy]) (.inr (by rw [h5, hx]))
    refine ⟨fun hp => ?_, fun hp => ?_⟩
    · have kept : softResetJob (s.transport.pendingReq == some (.eject .reject)) (softCleared (resetLink .soft tag s))
          = base := by
        rw [softCleared_no_pending (by exact hp), softResetJob]
        simp only [resetLink_soft_eq, hj, hp]
        rfl
      rw [kept, rests base hj hd ho rfl rfl]
    · obtain ⟨k, hk⟩ := Option.isSome_iff_exists.mp hi
      have again : softResetJob (s.transport.pendingReq == some (.eject .reject)) (softCleared (resetLink .soft tag s))
          = { base with job := { s.job with fiche := some { f with stack := some .reject } } } := by
        have asks : softResetJob true (softCleared (resetLink .soft tag s))
            = requestEject .reject (softCleared (resetLink .soft tag s)) := by
          simp [softResetJob, softCleared, resetLink_soft_eq, hj]
        rw [show (s.transport.pendingReq == some (.eject .reject)) = true by simp [hp], asks,
          requestEject_eq (f := f) _ (by exact hf),
          requestMotion_waits (k := k) (by exact hk) (by simp [softCleared, resetLink_soft_eq, hp]) (by simp)]
        have keeps : ({ s.transport with pendingReq := some (.eject .reject) } : Transport) = s.transport := by rw [← hp]
        exact congrArg (fun t => { base with
          job := { s.job with fiche := some { f with stack := some .reject } }, transport := t }) keeps
      rw [again]
      exact congrArg (Host.Outcome.next ∘ linkFinish s) (rests { base with job := _ } hj hd ho rfl rfl)
  · have kept : softResetJob (s.transport.pendingReq == some (.eject .reject)) (softCleared (resetLink .soft tag s))
        = base := by
      rw [softCleared_no_pending (by exact hp), softResetJob]
      simp only [resetLink_soft_eq, hj]
      rfl
    rw [reset (jobProceeds_at_rest hd (.inl hj)), kept, jobTests_idle (s := base) hj hd ho]
  · have homes : softResetJob (s.transport.pendingReq == some (.eject .reject)) (softCleared (resetLink .soft tag s))
        = sendMotion .home (setJobState .ending base) := by
      rw [softCleared_no_pending (by exact hp), softResetJob]
      simp only [resetLink_soft_eq, hj]
      exact requestMotion_sent (by exact hi) (by exact hp) rfl
    rw [reset (jobProceeds_at_rest hd (.inr ⟨hj, f, hf, hc⟩)), homes,
      jobTests_ending_busy (by rfl) (by exact hd) (by exact ho) (by rfl) (.inr (by exact hx))]
    rfl
  · have ends : Clauses.endsTheFiche (.resetSoft tag) .reset s base :=
      .inr (.inl ⟨tag, rfl, rfl, hu, by simp [base, link, endsFiche_of hf hn (by simp [hj])]⟩)
    rw [exec_ends_at_rest ends hj hf hn hd he hx ⟨hcard, hi, hp⟩, ← ho]
    rfl

end Sys2Proof.Machine
end

section
/-!
PROOFS. O23: transmission ends, and the placing of a waiting report with what its producer does then; the job
controller's tests where frames go on, where the last frame has gone, and where a completion is due.
-/

open Sys2Proof

namespace Sys2Proof.Machine

variable {s : State} {f : Fiche}

/-! ### The tests by job state, further -/

/-- Where frames go on, a job that still has a context or a busy engine leaves only a line start to be made (R18). -/
theorem jobTests_framesGoOn (h : Clauses.framesGoOn s)
    (hc : s.job.state = .closing → s.intake.contexts ≠ [] ∨ s.engine.state ≠ .idle) : jobTests s = dueLineStart s := by
  obtain ⟨hd, ho, hj | ⟨hj, f, hf, hm, hn⟩⟩ := h
  · exact jobTests_opened hj hd ho
  · rw [jobTests_closing hd ho (opens_of_met hf (.inl hm)), closingStep_not_due (.inr (.inr (hc hj))),
      completeJob_not_due hf (by simp [hj]) hn]

/-- The last context of a CLOSING job has gone: the closing step is made (R18 to R20). -/
theorem jobTests_closes (hj : s.job.state = .closing) (hf : s.job.fiche = some f) (hm : f.openingMet = true)
    (hn : f.outcome = none) (hd : s.job.fopenedDue = false) (ho : s.job.onStop = none) (hc : s.intake.contexts = [])
    (he : s.engine.state = .idle) (hx : s.engine.exposure = none) (hr : CardRests s.transport) :
    jobTests s = Clauses.closingMade f s := by
  rw [jobTests_closing hd ho (opens_of_met hf (.inl hm)), closingStep_made hj hf hm hn hc he hr,
    completeJob_closingMade hj, dueLineStart_no_exposure (s := Clauses.closingMade f s) hx]

/-- A FAULTED job whose engine is IDLE composes FCLOSED where its slot is empty (R27). -/
theorem jobTests_faulted_idle (hj : s.job.state = .faulted) (hf : s.job.fiche = some f) (hc : f.closed = false)
    (hd : s.job.fopenedDue = false) (ho : s.job.onStop = none) (he : s.engine.state = .idle) :
    jobTests s = if slotFree s .job = true then Clauses.closedWithFclosed f s else s := by
  have completes : completeJob s = if slotFree s .job = true then Clauses.closedWithFclosed f s else s := by
    simp [completeJob, hj, hf, hc, he, closeFiche_eq]
  rw [jobTests_faulted hj hd ho, completes]
  split
  · exact dueLineStart_no_job (.inr (.inr hj))
  · exact dueLineStart_no_job (.inr (.inr hj))

theorem enterIdle_state (s : State) : (enterIdle s).job.state = .idle := by
  simp [enterIdle, setJobState]

/-! ### The placing of a waiting report -/

theorem exec_reportPlaced {p : Producer} {r : Report} {rest : List (Producer × Report)} (hu : s.link.state = .up)
    (hr : s.link.reports.length < 32) (hs : s.link.slots = (p, r) :: rest) :
    exec .reportPlaced s = .next (linkFinish s (producerProceeds p { s with
      link := { s.link with slots := rest, reports := s.link.reports ++ [r] } })) :=
  exec_conclude (by simp [placeWaiting, hs, State.linkUp, hu, queueRoom, Config.reportQueueSize, hr]; rfl)

theorem transmissionEndsAndReportsArePlaced : Clauses.TransmissionEndsAndReportsArePlaced := by
  refine fun s => ⟨fun x hx => ?_, fun p r rest hu hr hs hp => ?_⟩
  · simp only [exec, execTransmissionEnds, hx]
    rfl
  · rw [exec_reportPlaced hu hr hs]
    rcases hp with rfl | rfl | rfl | rfl <;> rfl

theorem placedFrameReleasesTheContext : Clauses.PlacedFrameReleasesTheContext := by
  intro s r rest x c hu hr hs hj hd ho he hx hxc hctx horphan
  rw [exec_reportPlaced hu hr hs, producerProceeds, if_pos (by exact he),
    release_last (x := x) (by exact hx) hxc (by exact hctx),
    jobTests_opened (by exact hj) (by exact hd) (by exact ho), dueLineStart_no_exposure rfl]
  simp [released, horphan, Clauses.idled]

theorem placedFrameGoesOn : Clauses.PlacedFrameGoesOn := by
  intro s r rest x f hu hr hs he hx hf hd placed
  have placing : exec .reportPlaced s = .next (linkFinish s (jobTests (release placed))) := by
    rw [exec_reportPlaced hu hr hs, producerProceeds, if_pos (by exact he)]
  rw [placing]
  refine ⟨?moves, ?closes, ?disposes, ?faulted⟩
  case moves =>
    intro c staged more hj ho hm hxc hctx hcard hi hp y
    have goes : Clauses.framesGoOn (moveSent staged (released c (staged :: more) placed)) :=
      ⟨hd, ho, hj.imp id fun h => ⟨h.1, f, hf, hm, h.2⟩⟩
    rw [release_promotes (s := placed) hx hxc hctx (by simp [placed, openingMet, hf, hm])
        ⟨hcard, hi, hp⟩, jobTests_framesGoOn goes (fun _ => .inr (by simp [moveSent])),
      dueLineStart_other_state (by simp [moveSent]) (by simp [moveSent])]
    rfl
  case closes =>
    intro c hj ho hm hn hxc hctx hc hcard hi hp
    rw [release_last (s := placed) hx hxc hctx, released_last_closed hc,
      jobTests_closes (f := f) (by exact hj) (by exact hf) hm hn (by exact hd) (by exact ho)
        (by rfl) (by rfl) (by rfl) (by exact ⟨hcard, hi, hp⟩)]
  case disposes =>
    intro hj ho hxc hctx hcard hi hp
    rw [release_no_context (s := placed) hx hctx,
      jobTests_stopped (f := f) (by exact hj) (by exact hf) (by exact hd) (by exact ho)
        (by rfl) (by rfl) (by exact ⟨hcard, hi, hp⟩)]
    rfl
  case faulted =>
    intro hj ho hxc hctx hc u
    rw [release_no_context (s := placed) hx hctx,
      jobTests_faulted_idle (f := f) (by exact hj) (by exact hf) hc (by exact hd)
        (by exact ho) (by rfl)]
    rfl

/-- A FOPENED that is due is composed into the empty slot, and OPENING becomes OPEN with it (R11, R13). -/
theorem composeFopened_due (hf : s.job.fiche = some f) (hd : s.job.fopenedDue = true) (hs : slotFree s .job = true) :
    composeFopened s = { composeSlot .job (Clauses.fopened f s.layout) s with
      job := { s.job with
        fopenedDue := false, state := if s.job.state = .opening then .opened else s.job.state } } := by
  simp only [composeFopened, hf, hd, hs, Bool.and_self, if_true, State.setJob, composeSlot_frame]
  rfl

/-- The tests of a job that the opening's conditions do not meet just now, with no stop awaited. -/
theorem jobTests_no_opening (ho : s.job.onStop = none) (hm : opens s = false) :
    jobTests s = dueLineStart (completeJob (closingStep (composeFopened s))) := by
  rw [jobTests, takeStopSignal_none ho, meetOpening_not_due hm]

/-- The closing EJECT is done: FCLOSED, closed and IDLE (R20). -/
theorem completeJob_ejected (hj : s.job.state = .closing) (hf : s.job.fiche = some f)
    (ho : f.outcome ∈ [some FicheOutcome.complete, some .incomplete, some .empty])
    (ht : transportQuiet s.transport = true) (hs : slotFree s .job = true) :
    completeJob s = enterIdle (Clauses.closedWithFclosed f s) := by
  have requested : closingEjectRequested s = true := by
    simp only [List.mem_cons, List.not_mem_nil, or_false] at ho
    rcases ho with h | h | h <;> simp [closingEjectRequested, hj, hf, h, FicheOutcome.ofClosing]
  simp [completeJob, hj, hf, requested, ht, hs, closeFiche_eq]

/-- A NO_STOCK's end (R14). -/
theorem completeJob_noStock (hj : s.job.state = .opening ∨ s.job.state = .closing) (hf : s.job.fiche = some f)
    (ho : f.outcome = some .noStock) (hs : slotFree s .job = true) :
    completeJob s = enterIdle (Clauses.closedWithFclosed f (engineToIdle (clearIntake s))) := by
  have requested : closingEjectRequested s = false := by simp [closingEjectRequested, hf, ho, FicheOutcome.ofClosing]
  have ends : completeJob s = completeNoStock f s := by
    rcases hj with h | h <;> simp [completeJob, h, hf, requested]
  rw [ends, completeNoStock, if_pos ⟨ho, hs⟩, closeFiche_eq]

/-- ENDING is at its end: FCLOSED with the stack that stands or NONE, closed and IDLE (R25). -/
theorem completeEnding_closes (hf : s.job.fiche = some f) (hc : f.closed = false) (he : s.engine.state = .idle)
    (ho : s.job.onStop = none) (ht : transportQuiet s.transport = true) (hs : slotFree s .job = true) :
    completeEnding s = enterIdle (Clauses.closedWithFclosed { f with stack := some (f.stack.getD .noStack) } s) := by
  simp [completeEnding, he, ho, ht, hf, hc, hs, closeFiche_eq, Fiche.withDefaultStack]

theorem jobTests_ejected (hj : s.job.state = .closing) (hf : s.job.fiche = some f)
    (hout : f.outcome ∈ [some FicheOutcome.complete, some .incomplete, some .empty]) (hd : s.job.fopenedDue = false)
    (ho : s.job.onStop = none) (ht : transportQuiet s.transport = true) (hs : slotFree s .job = true) :
    jobTests s = enterIdle (Clauses.closedWithFclosed f s) := by
  have set : f.outcome ≠ none := fun h => by simp [h] at hout
  rw [jobTests_closing hd ho (opens_of_met hf (.inr set)),
    closingStep_not_due (.inr (.inl (by simp [hf, Option.isSome_iff_ne_none, set]))),
    completeJob_ejected hj hf hout ht hs, dueLineStart_no_job (.inr (.inl (enterIdle_state _)))]

theorem jobTests_noStock (hj : s.job.state = .opening ∨ s.job.state = .closing) (hf : s.job.fiche = some f)
    (hout : f.outcome = some .noStock) (hd : s.job.fopenedDue = false) (ho : s.job.onStop = none)
    (hs : slotFree s .job = true) :
    jobTests s = enterIdle (Clauses.closedWithFclosed f (engineToIdle (clearIntake s))) := by
  rw [jobTests_closing hd ho (opens_of_met hf (.inr (by simp [hout]))),
    closingStep_not_due (.inr (.inl (by simp [hf, hout]))), completeJob_noStock hj hf hout hs,
    dueLineStart_no_job (.inr (.inl (enterIdle_state _)))]

theorem jobTests_ended (hj : s.job.state = .ending) (hf : s.job.fiche = some f) (hc : f.closed = false)
    (hd : s.job.fopenedDue = false) (ho : s.job.onStop = none) (he : s.engine.state = .idle)
    (ht : transportQuiet s.transport = true) (hs : slotFree s .job = true) :
    jobTests s = enterIdle (Clauses.closedWithFclosed { f with stack := some (f.stack.getD .noStack) } s) := by
  rw [jobTests_ending hj hd, takeStopSignal_none ho, completeEnding_closes hf hc he ho ht hs,
    dueLineStart_no_job (.inr (.inl (enterIdle_state _)))]

/-- A clearing of page intake and an engine made IDLE after it (R14, R63); a band in hand goes first (log 36). -/
theorem engineToIdle_clearIntake (s : State) : engineToIdle (clearIntake s) = { (dropBand s) with
    intake := (dropBand s).intake.cleared, engine := Clauses.idled s.engine } := by
  rw [clearIntake_eq, ← idled_carried s.engine s.intake.contexts]
  rfl

/-- A line start is due with a line of the context at the head of the store (R71). -/
theorem dueLineStart_image {x : Exposure} {l : PlacedLine} {ls : List PlacedLine} (hx : s.engine.exposure = some x)
    (hdr : s.engine.driven = none) (hm : mayDrive s x = true) (he : s.engine.state = .exposing)
    (hstore : s.intake.store = l :: ls) (hl : l.cell = x.cell) :
    dueLineStart s = startImage x l.grays (s.setIntake { s.intake with store := ls }) := by
  simp [dueLineStart, hx, hdr, hm, he, hstore, hl]

/-- The part once a FOPENED that was due has been composed (R11, R13). -/
def openedNow (f : Fiche) (s : State) : State :=
  { composeSlot .job (Clauses.fopened f s.layout) s with
    job := { s.job with fopenedDue := false, state := if s.job.state = .opening then .opened else s.job.state } }

theorem openedNow_frame (f : Fiche) (s : State) : (openedNow f s).engine = s.engine ∧
    (openedNow f s).intake = s.intake ∧ (openedNow f s).head = s.head ∧ (openedNow f s).transport = s.transport ∧
    (openedNow f s).job.fiche = s.job.fiche := by
  simp [openedNow]

/-- A FOPENED that waited for the slot (R11, R13): a line start that waited for OPEN may be due then. -/
theorem jobTests_openedNow (hf : s.job.fiche = some f) (hm : f.openingMet = true) (hd : s.job.fopenedDue = true)
    (ho : s.job.onStop = none) (hs : slotFree s .job = true) (hj : s.job.state = .opening ∨
      (s.job.state = .closing ∧ f.outcome = none ∧ s.engine.state = .moving)) :
    jobTests s = dueLineStart (openedNow f s) := by
  rw [jobTests, takeStopSignal_none ho, meetOpening_not_due (opens_of_met hf (.inl hm)), composeFopened_due hf hd hs]
  change dueLineStart (completeJob (closingStep (openedNow f s))) = _
  obtain hj | ⟨hj, hn, he⟩ := hj
  · have opened : (openedNow f s).job.state = .opened := by simp [openedNow, hj]
    have completes : completeJob (openedNow f s) = openedNow f s := by simp [completeJob, opened]
    rw [closingStep_not_due (.inl (by simp [opened])), completes]
  · have closing : (openedNow f s).job.state = .closing := by simp [openedNow, hj]
    rw [closingStep_not_due (.inr (.inr (.inr (by simp [openedNow_frame, he])))),
      completeJob_not_due (f := f) (by simp [openedNow_frame, hf]) (by simp [closing]) hn]

theorem placedJobReportGoesOn : Clauses.PlacedJobReportGoesOn := by
  intro s r rest f hu hr hs hf ho placed hslot
  have placing : exec .reportPlaced s = .next (linkFinish s (jobTests placed)) := by
    rw [exec_reportPlaced hu hr hs, producerProceeds]
  have quiet : s.transport.card = .empty → s.transport.inFlight = none → s.transport.pendingReq = none →
      transportQuiet placed.transport = true := fun hcard hi hp => by simp [placed, transportQuiet, hcard, hi, hp]
  rw [placing]
  refine ⟨fun hd hm => ?opened, fun hd => ⟨?ejected, ?noStock, ?ended, ?faulted⟩⟩
  case opened =>
    intro u
    have opens := jobTests_openedNow (s := placed) hf hm hd ho hslot
    refine ⟨fun h => ?_, fun x l ls hj he hx hdr hst hready hcard hpos hstore hl => ?_⟩
    · have at_rest : s.engine.state = .idle ∨ s.engine.state = .moving := by
        obtain ⟨-, h⟩ | ⟨-, -, h⟩ := h
        · exact h
        · exact .inr h
      rw [opens (h.imp (·.1) id), dueLineStart_other_state]
      · rfl
      · rcases at_rest with h | h <;> simp [openedNow_frame, placed, h]
      · rcases at_rest with h | h <;> simp [openedNow_frame, placed, h]
    · have drives : mayDrive (openedNow f placed) x = true := by
        simp [mayDrive, openedNow, placed, hready, hcard, hpos, hj, hst]
      rw [opens (.inl hj), dueLineStart_image (x := x) (l := l) (ls := ls) (by simpa [openedNow_frame] using hx)
        (by simpa [openedNow_frame] using hdr) drives (by simpa [openedNow_frame] using he)
        (by simpa [openedNow_frame] using hstore) hl, (openedNow_frame f placed).2.1]
      rfl
  case ejected =>
    intro hj hout hcard hi hp
    rw [jobTests_ejected (s := placed) hj hf hout hd ho (quiet hcard hi hp) hslot]
  case noStock =>
    intro hj hout he u
    rw [jobTests_noStock (s := placed) hj hf hout hd ho hslot, engineToIdle_clearIntake]
    rfl
  case ended =>
    intro hj hc he hcard hi hp
    rw [jobTests_ended (s := placed) hj hf hc hd ho he (quiet hcard hi hp) hslot]
  case faulted =>
    intro hj hc he
    rw [jobTests_faulted_idle (s := placed) hj hf hc hd ho he, if_pos hslot]

/-- Settles O23: each producer's part after the placing, by the job state. -/
theorem waitingReportsArePlaced : Obligations.WaitingReportsArePlaced :=
  ⟨transmissionEndsAndReportsArePlaced, placedFrameReleasesTheContext, placedFrameGoesOn, placedJobReportGoesOn⟩

end Sys2Proof.Machine
end

section
/-!
PROOFS. O30: a RESET FULL. Every engine that drives no line is brought to IDLE with the part cleared, and the stop
signal then clears tables and head and requests HOME; a line being driven waits.
-/

open Sys2Proof

namespace Sys2Proof.Machine

variable {s : State} {x : Exposure}

/-! ### The blocks at a RESET FULL -/

theorem exec_resetFull {tag : Tag} (hu : s.link.state = .up) : exec (.resetFull tag) s = .next (linkFinish s
    (jobTests (fullResetBlocks (engineSlotLost (resetLink .full tag s))))) := by
  simp [exec, execResetFull, State.linkUp, hu, takeFullReset]

/-- What a RESET FULL makes of the link and of page intake's notes on the head record (R193). -/
theorem resetLink_full_eq {tag : Tag} (s : State) : resetLink .full tag s = { s with
    link := { s.link with
      inbound := [], counter := min 16 (s.link.counter + s.link.inbound.length), windowOpen := true, slots := []
      reports := [.resetDone { tag := tag, option := .full, priorSeq := s.ficheSeq, ficheEnded := endsFiche s }]
      overflow := false, lastRefusal := none }
    intake := { s.intake with band := none, pheadChecked := false } } := rfl

/-- The head with no average in progress where a profile was pinned, and its alert states clear (R114, R134). -/
def Head.unpinned (h : Head) (pinned : Bool) : Head :=
  if pinned then { h with sum := 0, count := 0, len := none, overActive := false, underActive := false }
  else { h with overActive := false, underActive := false }

/-- A request that waits survives only as a HOME (R155). -/
def Transport.homeKept (t : Transport) : Transport :=
  { t with pendingReq := if t.pendingReq = some .home then some .home else none }

/-- The part when a RESET FULL tells the engine to stop (R32, R63, R155, R179). -/
def fullCleared (s : State) : State :=
  { s with
    job := { state := .ending, fiche := none, fopenedDue := false, onStop := some .resetFull }
    tables := { s.tables with pins := none }
    intake := s.intake.cleared
    engine := carriedEngine s.engine s.intake.contexts
    head := s.head.unpinned s.tables.pins.isSome
    transport := s.transport.homeKept }

theorem discardPending_eq (s : State) : discardPending s = s.setTransport s.transport.homeKept := by
  unfold discardPending Transport.homeKept
  by_cases h : s.transport.pendingReq = some .home
  · simp only [h, if_true]
    rw [← h]
    rfl
  · simp only [h, if_false]

theorem releasePins_clearAlerts (s : State) : releasePins (discardPending (clearAlerts s)) = { s with
    tables := { s.tables with pins := none }
    head := s.head.unpinned s.tables.pins.isSome
    transport := s.transport.homeKept } := by
  rw [discardPending_eq]
  cases hp : s.tables.pins with
  | none =>
    simp only [releasePins, clearAlerts, State.setTransport_tables, State.setHead_tables, hp, Head.unpinned,
      Option.isSome_none, Bool.false_eq_true, if_false]
    rw [← hp]
    rfl
  | some p =>
    simp only [releasePins, clearAlerts, State.setTransport_tables, State.setHead_tables, hp, Head.unpinned,
      Option.isSome_some, if_true]
    rfl

theorem fullResetBlocks_eq (hb : s.intake.band = none) : fullResetBlocks s = stopEngine (fullCleared s) := by
  rw [fullResetBlocks, releasePins_clearAlerts, clearIntake_no_band (by exact hb)]
  rfl

/-- The transport controller after a RESET FULL's HOME: sent, waiting behind the command in flight, or joined to a HOME
(R32, R147, R155). -/
def Transport.homed (t : Transport) : Transport :=
  match t.inFlight with
  | none => { t with
      card := .homing, inFlight := some { number := t.nextNumber, motion := .home }
      timer := none, nextNumber := t.nextNumber + 1, position := none }
  | some k => { t with pendingReq := if k.motion = .home ∧ t.pendingReq ≠ some .home then none else some .home }

theorem homed_not_quiet (t : Transport) : transportQuiet t.homed = false := by
  unfold Transport.homed
  split <;> simp_all [transportQuiet]

theorem requestMotion_home {t : Transport} (ht : s.transport = t.homeKept)
    (hi : t.inFlight = none → t.pendingReq = none) : requestMotion .home s = s.setTransport t.homed := by
  cases hf : t.inFlight with
  | none =>
    have none_waits := hi hf
    rw [requestMotion_sent (by simp [ht, Transport.homeKept, hf]) (by simp [ht, Transport.homeKept, none_waits]) rfl,
      Transport.homed, sendMotion, ht]
    simp only [hf, Transport.homeKept, none_waits, reduceCtorEq, if_false]
    rfl
  | some k =>
    by_cases hu : t.pendingReq = some .home ∨ k.motion = .home
    · have joined : t.homed = t.homeKept := by
        by_cases hp : t.pendingReq = some .home
        · simp [Transport.homed, Transport.homeKept, hf, hp]
        · simp [Transport.homed, Transport.homeKept, hf, hp, hu.resolve_left hp]
      have under_way : homeUnderWay s.transport = true := by
        rcases hu with h | h <;> simp [homeUnderWay, ht, Transport.homeKept, hf, h]
      rw [joined, ← ht, requestMotion, if_pos ⟨rfl, under_way⟩]
      rfl
    · obtain ⟨hp, hk⟩ := not_or.mp hu
      have waits : requestMotion .home s = s.setTransport { s.transport with pendingReq := some .home } := by
        simp [requestMotion, homeUnderWay, ht, Transport.homeKept, hf, hp, hk]
      rw [waits, ht]
      simp [Transport.homed, Transport.homeKept, hf, hk]

/-- The engine has stopped under a RESET FULL: tables and head are cleared and HOME is requested (R32, R87). -/
theorem jobTests_fullReset {t : Transport}
    (hj : s.job = { state := .ending, fiche := none, fopenedDue := false, onStop := some .resetFull })
    (he : s.engine.state = .idle) (hx : s.engine.exposure = none) (hp : s.tables.pins = none)
    (ht : s.transport = t.homeKept) (hi : t.inFlight = none → t.pendingReq = none) :
    jobTests s = Clauses.fullyReset s.engine { s with transport := t } := by
  have signal : takeStopSignal s = Clauses.fullyReset s.engine { s with transport := t } := by
    have stops : takeStopSignal s = fullResetAtStop (s.setJob { s.job with onStop := none }) := by
      simp [takeStopSignal, hj, he]
    rw [stops, fullResetAtStop, requestMotion_home (t := t) (by exact ht) hi]
    simp only [hj, hp, State.setJob]
    rfl
  have kept : (Clauses.fullyReset s.engine { s with transport := t }).transport = t.homed := rfl
  rw [jobTests_ending (by rw [hj]) (by rw [hj]), signal,
    completeEnding_not_quiet (by rw [kept]; exact homed_not_quiet t),
    dueLineStart_no_exposure (by exact hx)]

/-! ### The engine at the stop of a RESET FULL -/

/-- The engines that drive no line, and what the stop makes of them (R85, R91). -/
def StopsAtOnce (a e : Engine) : Prop :=
  (a.state = .idle ∧ a.exposure = none ∧ e = a) ∨
    (e = Clauses.idled a ∧ (a.state = .waitOpen ∨ a.state = .moving ∨ a.state = .frameEnd ∨
      (a.exposure.isSome = true ∧
        (a.state = .holding ∨ ((a.state = .exposing ∨ a.state = .flooding) ∧ a.driven = none)))))

theorem StopsAtOnce.stopped {a e : Engine} (h : StopsAtOnce a e) : e.state = .idle ∧ e.exposure = none := by
  obtain ⟨hi, hx, rfl⟩ | ⟨rfl, -⟩ := h
  · exact ⟨hi, hx⟩
  · exact ⟨rfl, rfl⟩

/-- The release that a RESET FULL makes changes page intake in what is cleared after it alone (R63, R91). -/
theorem fullCleared_releaseOnly (s : State) :
    fullCleared (releaseOnly s) = { fullCleared s with engine := Clauses.idled s.engine } := by
  have dropped : ∃ cs o, dropExposing s = s.setIntake { s.intake with contexts := cs, orphan := o } := by
    unfold dropExposing
    (repeat' split) <;> exact ⟨_, _, rfl⟩
  obtain ⟨cs, o, hdrop⟩ := dropped
  have none_carried : carriedEngine (Clauses.idled s.engine) cs = Clauses.idled s.engine :=
    carriedEngine_no_exposure rfl cs
  rw [releaseOnly, hdrop, ← none_carried]
  rfl

/-- A stopped frame whose frame map is gone leaves nothing but an IDLE engine (R86, R91). -/
theorem frameEndStopped_no_fiche (hf : s.job.fiche = none) (hx : s.engine.exposure = some x)
    (hn : s.intake.contexts = []) : frameEndStopped x s = engineToIdle s := by
  have same : dropExposing s = s := by
    unfold dropExposing
    rw [hx, hn]
  rw [frameEndStopped, hf, releaseOnly, same]

theorem carriedEngine_exposure_isSome (e : Engine) (cs : List Context) :
    (carriedEngine e cs).exposure.isSome = e.exposure.isSome := by
  unfold carriedEngine
  (repeat' split) <;> simp_all

theorem stopEngine_fullCleared {e : Engine} (h : StopsAtOnce s.engine e) :
    stopEngine (fullCleared (engineSlotLost s)) = { fullCleared s with engine := e } := by
  have idles : Clauses.idled (fullCleared s).engine = Clauses.idled s.engine := idled_carried s.engine s.intake.contexts
  obtain ⟨hi, hx, rfl⟩ | ⟨rfl, hw | hm | hfe | ⟨hx, hbetween⟩⟩ := h
  · have none_carried : carriedEngine s.engine s.intake.contexts = s.engine := carriedEngine_no_exposure hx _
    rw [engineSlotLost, if_neg (by simp [hi]), stopEngine_idle (by simp [fullCleared, hi]), fullCleared, none_carried]
  · rw [engineSlotLost, if_neg (by simp [hw]), stopEngine_before_frame (by simp [fullCleared, hw]), ← idles]
    rfl
  · rw [engineSlotLost, if_neg (by simp [hm]), stopEngine_before_frame (by simp [fullCleared, hm]), ← idles]
    rfl
  · rw [engineSlotLost, if_pos hfe, fullCleared_releaseOnly, stopEngine_idle rfl]
  · have busy : s.engine.state ≠ .frameEnd := by rcases hbetween with h | ⟨h | h, -⟩ <;> simp [h]
    obtain ⟨x, hx⟩ := Option.isSome_iff_exists.mp hx
    obtain ⟨y, hy⟩ := Option.isSome_iff_exists.mp
      ((carriedEngine_exposure_isSome s.engine s.intake.contexts).trans (by simp [hx]))
    rw [engineSlotLost, if_neg busy, stopEngine_between_lines (x := y) (by simpa [fullCleared] using hbetween) hy,
      frameEndStopped_no_fiche (by rfl) (by exact hy) (by rfl), ← idles]
    rfl

theorem engineSlotLost_band (s : State) : (engineSlotLost s).intake.band = s.intake.band := by
  unfold engineSlotLost releaseOnly dropExposing
  (repeat' split) <;> simp [engineToIdle]

theorem resetFullClearsThePart : Clauses.ResetFullClearsThePart := by
  intro tag s hu link intake
  refine ⟨fun e hi he => ?_, fun p x x1 hp hs hx hdr hpend hx1 => ?_⟩
  · obtain ⟨hidle, hnone⟩ := StopsAtOnce.stopped he
    rw [exec_resetFull hu, fullResetBlocks_eq (by rw [engineSlotLost_band]; rfl),
      stopEngine_fullCleared (s := resetLink .full tag s) he,
      jobTests_fullReset (t := s.transport) (by rfl) (by exact hidle) (by exact hnone) (by rfl) (by rfl) hi]
    simp only [fullCleared, resetLink_full_eq, hu]
    cases s.tables.pins.isSome <;> rfl
  · have carried : carriedEngine s.engine s.intake.contexts = { s.engine with exposure := some x1 } := by
      obtain ⟨c, rest, hc, hctx, rfl⟩ | ⟨hc, rfl⟩ := hx1
      · rw [hctx]
        exact carriedEngine_keeps hx hc (by rcases hs with h | h <;> simp [h, EngineState.keepsFlags])
      · rw [carriedEngine_carried hx hc, ← hx]
    have slot : engineSlotLost (resetLink .full tag s) = resetLink .full tag s :=
      if_neg (by rcases hs with h | h <;> simp [resetLink_full_eq, h])
    have cleared : fullCleared (resetLink .full tag s) = { s with
        link := link
        job := { state := .ending, fiche := none, fopenedDue := false, onStop := some .resetFull }
        tables := { s.tables with pins := none }
        intake := intake
        engine := { s.engine with exposure := some x1 }
        head := { s.head with sum := 0, count := 0, len := none, overActive := false, underActive := false } } := by
      have kept : s.transport.homeKept = s.transport := by
        simp only [Transport.homeKept, hpend, reduceCtorEq, if_false]
        rw [← hpend]
      have head : s.head.unpinned s.tables.pins.isSome
          = { s.head with sum := 0, count := 0, len := none, overActive := false, underActive := false } := by
        simp [Head.unpinned, hp]
      simp only [fullCleared, resetLink_full_eq, carried, kept, head, hu]
      rfl
    rw [exec_resetFull hu, slot, fullResetBlocks_eq (by rfl), cleared, stopEngine_driven (x := x1) (by exact hs) (by rfl)
      (by exact hdr), jobTests_awaits_stop (p := .resetFull) (by rfl) (by rfl) (by rfl)
      (by rcases hs with h | h <;> simp [h]) (.inl (by exact hdr))]
    rfl

theorem resetReportsTheEndedFiche : Clauses.ResetReportsTheEndedFiche := by
  intro s
  cases hj : s.job.state <;> cases hf : s.job.fiche <;> simp [endsFiche, hj, hf]

/-- Settles O30: the part cleared, HOME requested at once or at the line's end, and what RESETDONE says of the fiche. -/
theorem resetFullClearsAndReports : Obligations.ResetFullClearsAndReports :=
  ⟨resetFullClearsThePart, resetReportsTheEndedFiche⟩

end Sys2Proof.Machine
end

section
/-!
PROOFS. The opening (R13), and O32: the DONE of a LOAD with the head READY.
-/

open Sys2Proof

namespace Sys2Proof.Machine

variable {s : State} {f : Fiche} {x : Exposure}

/-! ### The opening -/

/-- The opening's conditions hold (R13). -/
structure Opens (s : State) (f : Fiche) : Prop where
  job : s.job.state = .opening ∨ s.job.state = .closing
  fiche : s.job.fiche = some f
  not_met : f.openingMet = false
  no_outcome : f.outcome = none
  not_due : s.job.fopenedDue = false
  no_stop : s.job.onStop = none
  slot : slotFree s .job = true
  ready : s.head.state = .ready
  loaded : s.transport.card = .loaded
  none_in_flight : s.transport.inFlight = none
  none_pending : s.transport.pendingReq = none

/-- The opening met, FOPENED not yet composed (R13). -/
def metOpening (f : Fiche) (s : State) : State :=
  s.setJob { s.job with fiche := some { f with openingMet := true }, fopenedDue := true }

/-- The opening met and FOPENED composed; OPENING is OPEN (R13, R30). -/
def openedWith (f : Fiche) (s : State) : State :=
  { composeSlot .job (Clauses.fopened f s.layout) s with
    job := { s.job with
      state := if s.job.state = .opening then .opened else s.job.state
      fiche := some { f with openingMet := true }, fopenedDue := false } }

theorem openedWith_frame (f : Fiche) (s : State) : (openedWith f s).engine = s.engine ∧
    (openedWith f s).intake = s.intake ∧ (openedWith f s).tables = s.tables ∧
    (openedWith f s).transport = s.transport := by
  simp [openedWith]

theorem openedWith_state (h : s.job.state = .opening ∨ s.job.state = .closing) :
    (openedWith f s).job.state = .opened ∨ (openedWith f s).job.state = .closing := by
  rcases h with h | h <;> simp [openedWith, h]

theorem meetOpening_met (h : Opens s f) : meetOpening s = noticeOpening (metOpening f s) := by
  have holds : opens s = true := by
    rcases h.job with hj | hj <;> simp [opens, hj, h.loaded, h.ready, h.fiche, h.not_met, h.no_outcome]
  simp only [meetOpening, h.fiche, holds, if_true]
  rfl

/-- The notice reaches an engine that does not wait (R67). -/
theorem noticeOpening_other (he : s.engine.state ≠ .waitOpen) : noticeOpening s = s := by
  unfold noticeOpening
  split <;> simp_all

/-- The opening changes the link and the job alone, by the link, the tables and the job alone. -/
theorem openedWith_eq {t : State} (hl : t.link = s.link) (ht : t.tables = s.tables) (hj : t.job = s.job) :
    openedWith f t = { t with
      link := (composeSlot .job (Clauses.fopened f s.layout) s).link
      job := { s.job with
        state := if s.job.state = .opening then .opened else s.job.state
        fiche := some { f with openingMet := true }, fopenedDue := false } } := by
  rw [openedWith, composeSlot_eq_of_link .job _ hl, State.layout_eq ht, hj]

/-- FOPENED is composed and OPENING becomes OPEN, whatever the notice has made of the engine (R11, R13). -/
theorem composeFopened_met {t : State} (h : Opens s f) (hl : t.link = s.link) (ht : t.tables = s.tables)
    (hj : t.job = (metOpening f s).job) :
    composeFopened t = { t with link := (openedWith f s).link, job := (openedWith f s).job } := by
  rw [composeFopened_due (f := { f with openingMet := true }) (by rw [hj]; rfl) (by rw [hj]; rfl)
      (by simpa [slotFree, hl] using h.slot),
    composeSlot_eq_of_link .job _ hl, State.layout_eq ht, hj]
  rfl

/-- The tests of an opening, with an engine that did not wait. -/
theorem jobTests_opens (h : Opens s f) (he : s.engine.state = .idle) :
    jobTests s = dueLineStart (completeJob (closingStep (openedWith f s))) := by
  have opened : composeFopened (metOpening f s) = openedWith f s := by
    rw [composeFopened_met h (by rfl) (by rfl) (by rfl), openedWith, composeSlot_eq_of_link (s := s) (t := s) .job _ rfl]
    rfl
  rw [jobTests, takeStopSignal_none h.no_stop, meetOpening_met h, noticeOpening_other (by simp [metOpening, he]), opened]

theorem jobTests_opens_idle (h : Opens s f) (he : s.engine.state = .idle) (hx : s.engine.exposure = none)
    (hc : s.job.state = .opening ∨ s.intake.contexts ≠ []) : jobTests s = openedWith f s := by
  have not_due : closingStep (openedWith f s) = openedWith f s := by
    obtain hj | hn := hc
    · exact closingStep_not_due (.inl (by simp [openedWith, hj]))
    · exact closingStep_not_due (.inr (.inr (.inl (by simpa [openedWith_frame] using hn))))
  rw [jobTests_opens h he, not_due, completeJob_not_due (f := { f with openingMet := true }) rfl
      (by rcases openedWith_state (f := f) h.job with hj | hj <;> simp [hj]) h.no_outcome,
    dueLineStart_no_exposure (by simp [openedWith_frame, hx])]

theorem jobTests_opens_closes (h : Opens s f) (hj : s.job.state = .closing) (he : s.engine.state = .idle)
    (hx : s.engine.exposure = none) (hc : s.intake.contexts = []) :
    jobTests s = Clauses.closingMade { f with openingMet := true } (openedWith f s) := by
  have closing : (openedWith f s).job.state = .closing := by simp [openedWith, hj]
  rw [jobTests_opens h he, closingStep_made (f := { f with openingMet := true }) closing rfl rfl h.no_outcome
      (by simp [openedWith_frame, hc]) (by simp [openedWith_frame, he])
      (by simpa [openedWith_frame] using ⟨.inl h.loaded, h.none_in_flight, h.none_pending⟩),
    completeJob_closingMade closing, dueLineStart_no_exposure]
  simp [Clauses.closingMade, openedWith_frame, hx]

/-- A waiting engine sends its MOVE (R67, R68). -/
theorem jobTests_opens_moves (h : Opens s f) (he : s.engine.state = .waitOpen) (hx : s.engine.exposure = some x) :
    jobTests s = { openedWith f s with
      engine := { s.engine with state := .moving }
      transport := { s.transport with
        card := .moving
        inFlight := some { number := s.transport.nextNumber, motion := .move x.cell x.x x.y }
        timer := none, nextNumber := s.transport.nextNumber + 1, position := none } } := by
  have moved : noticeOpening (metOpening f s) = { metOpening f s with
      engine := { s.engine with state := .moving }
      transport := { s.transport with
        card := .moving
        inFlight := some { number := s.transport.nextNumber, motion := .move x.cell x.x x.y }
        timer := none, nextNumber := s.transport.nextNumber + 1, position := none } } := by
    have notice : noticeOpening (metOpening f s) = requestMove x (metOpening f s) := by
      simp [noticeOpening, metOpening, he, hx]
    rw [notice, requestMove, requestMotion_sent (by exact h.none_in_flight) (by exact h.none_pending)
      (by simp [metOpening, Motion.sendable, h.loaded]), ← hx]
    rfl
  have goes_on : ∀ w : State, w.job = (openedWith f s).job → w.engine.state = .moving →
      dueLineStart (completeJob (closingStep w)) = w := fun w hj he => by
    rw [closingStep_not_due (.inr (.inr (.inr (by simp [he])))), completeJob_not_due (f := { f with openingMet := true })
        (by rw [hj]; rfl) (by rw [hj]; rcases openedWith_state (f := f) h.job with hj | hj <;> simp [hj]) h.no_outcome,
      dueLineStart_other_state (by simp [he]) (by simp [he])]
  rw [jobTests, takeStopSignal_none h.no_stop, meetOpening_met h, moved,
    composeFopened_met h (by rfl) (by rfl) (by rfl), goes_on _ (by rfl) (by rfl)]
  simp only [openedWith]
  rw [composeSlot_eq_of_link (s := s) (t := s) .job (Clauses.fopened f s.layout) rfl]
  rfl

/-! ### The DONE of a LOAD (O32) -/

/-- The DONE of a LOAD leaves the card LOADED, and tells an ENDING alone (R24, R140). -/
theorem motionDone_load {n : CommandNumber} (hj : s.job.state = .opening ∨ s.job.state = .closing)
    (hp : s.transport.pendingReq = none) :
    motionDone { number := n, motion := .load } s = s.setTransport { s.transport with
      card := .loaded, inFlight := none, timer := none, position := none } := by
  have told : tellDone .load (arrived .load s) = arrived .load s := by
    rcases hj with h | h <;> simp [tellDone, arrived, h]
  rw [motionDone_eq, told, takePending_none (by exact hp)]
  rfl

/-- Settles O32: the opening's conditions hold once the card is LOADED; the tests go on by the engine and the contexts. -/
theorem loadDoneOpensTheFiche : Obligations.LoadDoneOpensTheFiche := by
  intro s n f hi hp hj hf hm hn hd ho hs hready u job
  have meets : Opens (s.setTransport { s.transport with
      card := .loaded, inFlight := none, timer := none, position := none }) f :=
    ⟨hj, hf, hm, hn, hd, ho, hs, hready, rfl, rfl, hp⟩
  have opened : openedWith f (s.setTransport { s.transport with
      card := .loaded, inFlight := none, timer := none, position := none }) = { u with
        job := job
        transport := { s.transport with card := .loaded, inFlight := none, timer := none, position := none } } := by
    have state : (if s.job.state = .opening then JobState.opened else s.job.state) = job.state := by
      rcases hj with h | h <;> simp [job, h]
    have composed : u = { s with link := u.link } := composeSlot_eq_of_link (s := s) (t := s) .job _ rfl
    rw [openedWith_eq (s := s) (by rfl) (by rfl) (by rfl), state, composed, ← hd]
    rfl
  rw [exec_done hi, motionDone_load hj hp]
  refine ⟨fun he hx hc => ?_, fun he hx hc hn => ?_, fun x he hx => ?_⟩
  · rw [jobTests_opens_idle meets he hx hc, opened]
  · have profile : u.profile = s.profile := State.profile_eq (by simp [u])
    rw [jobTests_opens_closes meets hc he hx hn, opened, ← profile]
    rfl
  · rw [jobTests_opens_moves meets he hx, opened]
    rfl

end Sys2Proof.Machine
end

section
/-!
PROOFS. O51: a conversion's way through the average, the comparison, the correction and the warm-up; READY and the
opening.
-/

open Sys2Proof

namespace Sys2Proof.Machine

variable {s : State} {f : Fiche} {raw n : Nat}

/-! ### A conversion -/

/-- The raw value added to the average in progress, of length `n` (R110, R111). -/
def averageAdded (raw n : Nat) (s : State) : State :=
  s.setHead { s.head with raw := raw, sum := s.head.sum + raw, count := s.head.count + 1, len := some n }

/-- The average completed (R111, R112). -/
def averageDone (raw m : Nat) (s : State) : State :=
  s.setHead { s.head with raw := raw, sum := 0, count := 0, len := none, mAvg := m, mValid := true }

/-- The correction computed from the average `m` under the pinned profile (R122). -/
def corrected (m : Nat) (s : State) : State :=
  s.setHead { s.head with c := (correctionOf s.profile m).1, sat := (correctionOf s.profile m).2 }

/-- The raw value compared under basis RAW (R115). -/
def rawCompared (raw n : Nat) (s : State) : State :=
  if s.tables.pins.isSome && s.profile.basis == .raw then compareValue raw (averageAdded raw n s)
  else averageAdded raw n s

theorem rawCompared_count (raw n : Nat) (s : State) : (rawCompared raw n s).head.count = s.head.count + 1 := by
  unfold rawCompared
  split <;> simp [averageAdded]

theorem rawCompared_frame (raw n : Nat) (s : State) : (rawCompared raw n s).head.state = s.head.state ∧
    (rawCompared raw n s).head.sum = s.head.sum + raw ∧ (rawCompared raw n s).head.raw = raw ∧
    (rawCompared raw n s).head.warmCounter = s.head.warmCounter ∧ (rawCompared raw n s).tables = s.tables := by
  unfold rawCompared
  split <;> simp [averageAdded]

theorem takeConversion_adds (hn : s.head.len.getD (averageLength s) = n) (hc : s.head.count + 1 ≠ n) :
    takeConversion raw s = rawCompared raw n s := by
  have : takeConversion raw s = if (rawCompared raw n s).head.count = n then completeAverage n (rawCompared raw n s)
      else rawCompared raw n s := by rw [← hn]; rfl
  rw [this, rawCompared_count, if_neg hc]

theorem takeConversion_completes (hn : s.head.len.getD (averageLength s) = n) (hc : s.head.count + 1 = n) :
    takeConversion raw s = completeAverage n (rawCompared raw n s) := by
  have : takeConversion raw s = if (rawCompared raw n s).head.count = n then completeAverage n (rawCompared raw n s)
      else rawCompared raw n s := by rw [← hn]; rfl
  rw [this, rawCompared_count, if_pos hc]

/-! ### A completed average -/

theorem updateWarm_other (h : s.head.state ≠ .warming ∨ s.tables.pins = none) : updateWarm s = s := by
  unfold updateWarm
  rcases h with h | h <;> simp [h]

/-- The warm counter's next value for the average `m` (R127). -/
def warmNext (m : Nat) (s : State) : Nat :=
  if s.profile.underLimit ≤ m ∧ m ≤ s.profile.overLimit then s.head.warmCounter + 1 else 0

theorem updateWarm_below (hw : s.head.state = .warming) (hp : s.tables.pins.isSome = true)
    (hk : warmNext s.head.mAvg s < s.profile.warmCount) :
    updateWarm s = s.setHead { s.head with warmCounter := warmNext s.head.mAvg s } := by
  simp only [updateWarm, hw, hp, and_self, if_true]
  exact if_neg (Nat.not_le.mpr hk)

/-- At the warm count the head is READY; outside IDLE no park timer starts (R128, R130). -/
theorem updateWarm_reaches (hw : s.head.state = .warming) (hp : s.tables.pins.isSome = true)
    (hk : s.profile.warmCount ≤ warmNext s.head.mAvg s) (hj : s.job.state ≠ .idle) :
    updateWarm s = s.setHead { s.head with
      state := .ready, warmCounter := warmNext s.head.mAvg s, warmTimer := none } := by
  simp only [updateWarm, hw, hp, and_self, if_true]
  refine (if_pos hk).trans ?_
  simp [startPark, hj, warmNext]

theorem completeAverage_unpinned (hp : s.tables.pins = none) :
    completeAverage n s = averageDone s.head.raw (averageOf s.head.sum n) s := by
  simp only [completeAverage, hp, Option.isSome_none, Bool.false_and, Bool.false_eq_true, if_false]
  exact updateWarm_other (.inr (by simpa using hp))

/-- Under a pinned profile the average is compared under basis AVERAGED, the correction computed, and the warm counter
taken on (R115, R122, R127). -/
theorem completeAverage_pinned (hp : s.tables.pins.isSome = true) :
    completeAverage n s = updateWarm (corrected (averageOf s.head.sum n)
      (if s.profile.basis = .averaged then
        compareValue (averageOf s.head.sum n) (averageDone s.head.raw (averageOf s.head.sum n) s)
        else averageDone s.head.raw (averageOf s.head.sum n) s)) := by
  have corrects : ∀ u : State, u.head.mAvg = averageOf s.head.sum n →
      computeCorrection u = corrected (averageOf s.head.sum n) u := fun u hm => by rw [← hm]; rfl
  have average : (averageDone s.head.raw (averageOf s.head.sum n) s).head.mAvg = averageOf s.head.sum n := rfl
  by_cases hb : s.profile.basis = .averaged
  · have steps : completeAverage n s = updateWarm (computeCorrection
        (compareValue (averageOf s.head.sum n) (averageDone s.head.raw (averageOf s.head.sum n) s))) := by
      simp only [completeAverage, hp, hb, beq_self_eq_true, Bool.and_self, if_true]
      rfl
    rw [steps, corrects _ (by simp [average]), if_pos hb]
  · have steps : completeAverage n s
        = updateWarm (computeCorrection (averageDone s.head.raw (averageOf s.head.sum n) s)) := by
      simp only [completeAverage, hp, beq_false_of_ne hb, Bool.and_false, Bool.false_eq_true, if_false, if_true]
      rfl
    rw [steps, corrects _ average, if_neg hb]

/-- A value within the limits, with both alert states CLEAR, changes nothing (R115 to R118). -/
theorem compareValue_within {v : Nat} (hu : s.profile.underLimit ≤ v) (ho : v ≤ s.profile.overLimit)
    (hoa : s.head.overActive = false) (hua : s.head.underActive = false) : compareValue v s = s := by
  have clear : ∀ mode, alertAfter mode false false = false := fun mode => by cases mode <;> rfl
  have silent : ∀ kind u, limitAlert kind v false false u = u := fun kind u => by simp [limitAlert]
  have keeps : s.setHead { s.head with overActive := false, underActive := false } = s :=
    congrArg₂ (fun a b => s.setHead { s.head with overActive := a, underActive := b }) hoa.symm hua.symm
  simp only [compareValue, hoa, hua, decide_eq_false (Nat.not_lt.mpr ho), decide_eq_false (Nat.not_lt.mpr hu), clear,
    silent, Bool.or_self, Bool.false_eq_true, if_false, keeps]

/-! ### The conversion's notice -/

theorem exec_conversion {raw : Sample} (hp : s.head.state ≠ .parked)
    (hw : s.head.state = .warming → (takeConversion raw.toNat s).head.state ≠ .ready) :
    exec (.conversion raw) s = .next (linkFinish s (takeConversion raw.toNat s)) := by
  refine exec_conclude ?_
  rw [acceptConversion, if_neg hp, if_neg fun h => hw h.1 h.2]

/-- A conversion that makes the head READY is noticed by the job controller (R128). -/
theorem exec_conversion_ready {raw : Sample} (hw : s.head.state = .warming)
    (hr : (takeConversion raw.toNat s).head.state = .ready) :
    exec (.conversion raw) s = .next (linkFinish s (jobTests (takeConversion raw.toNat s))) := by
  refine exec_conclude ?_
  rw [acceptConversion, if_neg (by simp [hw]), if_pos ⟨hw, hr⟩]

theorem conversionsAverageAndWarmUp : Clauses.ConversionsAverageAndWarmUp := by
  intro s raw hparked n m added averaged
  constructor
  · intro hc
    have adds : takeConversion raw.toNat s = rawCompared raw.toNat n s := takeConversion_adds rfl hc
    rw [exec_conversion hparked (fun hw => by simp [adds, rawCompared_frame, hw]), adds, rawCompared]
    refine ⟨fun h => ?_, fun hp hb => ?_⟩
    · rw [if_neg]
      · rfl
      · rcases h with h | h <;> simp [h]
    · rw [if_pos (by simp [hp, hb])]
      rfl
  · intro hc
    have completes : takeConversion raw.toNat s = completeAverage n (rawCompared raw.toNat n s) :=
      takeConversion_completes rfl hc
    constructor
    · intro hp
      have plain : rawCompared raw.toNat n s = averageAdded raw.toNat n s := by simp [rawCompared, hp]
      rw [plain, completeAverage_unpinned (by exact hp)] at completes
      rw [exec_conversion hparked (fun hw => by simp [completes, averageDone, averageAdded, hw]), completes]
      rfl
    · intro hp u k
      obtain ⟨hstate, hsum, hraw, hcounter, htab⟩ := rawCompared_frame raw.toNat n s
      have taken : takeConversion raw.toNat s = updateWarm (corrected m u) := by
        rw [completes, completeAverage_pinned (by rw [htab, hp]), hsum, hraw, State.profile_eq htab]
        simp only [u, rawCompared, hp, Bool.true_and]
        cases hb : s.profile.basis <;> rfl
      obtain ⟨hustate, hucounter, hutab, hum⟩ : u.head.state = s.head.state ∧ u.head.warmCounter = s.head.warmCounter ∧
          u.tables = s.tables ∧ u.head.mAvg = m := by
        simp only [u]
        cases hb : s.profile.basis <;> simp [averaged, added]
      refine ⟨fun hr => ?_, fun hw hk => ?_⟩
      · have same : updateWarm (corrected m u) = corrected m u :=
          updateWarm_other (.inl (by simp [corrected, hustate, hr]))
        rw [exec_conversion hparked (fun hw => by simp [hr] at hw), taken, same, corrected, State.profile_eq hutab]
        rfl
      · have profile : (corrected m u).profile = s.profile := State.profile_eq hutab
        have next : warmNext (corrected m u).head.mAvg (corrected m u) = k := by
          simp only [warmNext, profile, k]
          simp [corrected, hum, hucounter]
        have below : updateWarm (corrected m u)
            = (corrected m u).setHead { (corrected m u).head with warmCounter := k } := by
          rw [← next]
          exact updateWarm_below (by simp [corrected, hustate, hw]) (by simp [corrected, hutab, hp])
            (by rw [next, profile]; exact hk)
        rw [exec_conversion hparked (fun _ => by rw [taken, below]; simp [corrected, hustate, hw]), taken, below,
          corrected, State.profile_eq hutab]
        rfl

/-- The average that takes the warm counter to the warm count, under basis AVERAGED and with nothing to alert (R127,
R128). -/
theorem takeConversion_ready {m : Nat} (hn : s.head.len.getD (averageLength s) = n) (hc : s.head.count + 1 = n)
    (hm : averageOf (s.head.sum + raw) n = m) (hw : s.head.state = .warming) (hp : s.tables.pins.isSome = true)
    (hb : s.profile.basis = .averaged) (hlo : s.profile.underLimit ≤ m) (hhi : m ≤ s.profile.overLimit)
    (hoa : s.head.overActive = false) (hua : s.head.underActive = false)
    (hk : s.profile.warmCount ≤ s.head.warmCounter + 1) (hj : s.job.state ≠ .idle) :
    takeConversion raw s = s.setHead { s.head with
      state := .ready, raw := raw, sum := 0, count := 0, len := none, mAvg := m, mValid := true
      c := (correctionOf s.profile m).1, sat := (correctionOf s.profile m).2
      warmCounter := s.head.warmCounter + 1, warmTimer := none } := by
  have plain : rawCompared raw n s = averageAdded raw n s := by simp [rawCompared, hb]
  have within_limits : compareValue m (averageDone raw m (averageAdded raw n s))
      = averageDone raw m (averageAdded raw n s) :=
    compareValue_within hlo hhi hoa hua
  have next : warmNext m (corrected m (averageDone raw m (averageAdded raw n s))) = s.head.warmCounter + 1 :=
    if_pos ⟨hlo, hhi⟩
  rw [takeConversion_completes hn hc, plain, completeAverage_pinned (s := averageAdded raw n s) hp]
  change updateWarm (corrected (averageOf (s.head.sum + raw) n) (if s.profile.basis = .averaged then
    compareValue (averageOf (s.head.sum + raw) n)
      (averageDone raw (averageOf (s.head.sum + raw) n) (averageAdded raw n s))
    else averageDone raw (averageOf (s.head.sum + raw) n) (averageAdded raw n s))) = _
  rw [hm, if_pos hb, within_limits,
    updateWarm_reaches (by exact hw) (by exact hp) (by exact next.symm ▸ hk) (by exact hj)]
  exact congrArg (fun k => s.setHead { s.head with
      state := .ready, raw := raw, sum := 0, count := 0, len := none, mAvg := m, mValid := true
      c := (correctionOf s.profile m).1, sat := (correctionOf s.profile m).2
      warmCounter := k, warmTimer := none }) next

theorem readyHeadMeetsTheOpening : Clauses.ReadyHeadMeetsTheOpening := by
  intro s raw f hw hp hb n m hc hlo hhi hoa hua hk hj hf ho hm hd hst ready
  have taken : takeConversion raw.toNat s = s.setHead ready :=
    takeConversion_ready rfl hc rfl hw hp hb hlo hhi hoa hua hk (by simp [hj])
  have notices : exec (.conversion raw) s = .next (linkFinish s (jobTests (s.setHead ready))) := by
    rw [exec_conversion_ready hw (by rw [taken]; rfl), taken]
  rw [notices]
  refine ⟨fun hcard => ?_, fun hcard hs hi hpend => ?_⟩
  · rw [jobTests_no_opening (by exact hst) (opens_not_loaded (by simp [hcard])), composeFopened_not_due (by exact hd),
      closingStep_not_due (.inl (by simp [hj])), completeJob_not_due (f := f) (by exact hf) (by simp [hj]) ho,
      dueLineStart_no_job (.inl (by exact hj))]
    rfl
  · intro u
    have meets : Opens (s.setHead ready) f := ⟨.inl hj, hf, hm, ho, hd, hst, hs, rfl, hcard, hi, hpend⟩
    have opened : openedWith f (s.setHead ready) = u := by
      rw [openedWith_eq (s := s) (by rfl) (by rfl) (by rfl), if_pos hj, ← hd]
      simp only [u]
      rw [composeSlot_eq_of_link (s := s) (t := s) .job (Clauses.fopened f s.layout) rfl]
      rfl
    refine ⟨fun he hx => ?_, fun x he hx => ?_⟩
    · rw [jobTests_opens_idle meets he hx (.inl hj), opened]
    · rw [jobTests_opens_moves meets he hx, opened]
      rfl

theorem averageLengthHasThreeSources : Clauses.AverageLengthHasThreeSources :=
  fun s => ⟨fun hp => by simp [averageLength, hp], fun hp hv => by simp [averageLength, hp, hv],
    fun hp hv => by simp [averageLength, hp, hv, Config.defaultAverage]⟩

/-- Settles O51: the average's way, READY's notice, and the average's length. -/
theorem conversionsCompleteAverages : Obligations.ConversionsCompleteAverages :=
  ⟨conversionsAverageAndWarmUp, readyHeadMeetsTheOpening, averageLengthHasThreeSources⟩

end Sys2Proof.Machine
end

section
/-!
PROOFS. O53: the head monitor at a pin, at a request for READY, at the return to IDLE and at its timers; the emitter
bias.
-/

open Sys2Proof

namespace Sys2Proof.Machine

variable {s : State} {f : Fiche}

/-- A pin recomputes the correction exactly where m_avg is valid (R113). -/
theorem headPinned_eq (s : State) : headPinned s = { s with head := { s.head with
    sum := 0, count := 0, len := none, warmCounter := 0, overActive := false, underActive := false
    c := if s.head.mValid = true then (correctionOf s.profile s.head.mAvg).1 else s.head.c
    sat := if s.head.mValid = true then (correctionOf s.profile s.head.mAvg).2 else s.head.sat } } := by
  by_cases h : s.head.mValid = true
  · simp only [headPinned, h, if_true]
    rfl
  · simp only [headPinned, h]
    rfl

/-- The return to IDLE under pins: they are released, and the park timer of a READY head starts (R114, R130, R174). -/
theorem enterIdle_pinned {p : Pins} (hp : s.tables.pins = some p) : enterIdle s = { s with
    job := { s.job with state := .idle }
    tables := { s.tables with pins := none }
    head := { s.head with
      sum := 0, count := 0, len := none, overActive := false, underActive := false
      parkTimer := if s.head.state = .ready ∧ 0 < s.tables.unit.parkDelay
        then some (s.tables.unit.parkDelay * 1000) else s.head.parkTimer } } := by
  simp only [enterIdle, releasePins, hp, headUnpinned, clearAlerts, setJobState, startPark, State.setJob, State.setHead,
    State.setTables, true_and]
  split <;> rfl

theorem pinsRestartTheHeadMonitor : Clauses.PinsRestartTheHeadMonitor := by
  refine fun s => ⟨headPinned_eq s, fun h => ?_, fun h => ?_, fun h => ?_, fun p hp => enterIdle_pinned hp⟩
  · simp only [askReady, h]
    rfl
  · simp only [askReady, h]
  · simp only [askReady, h]
    rfl

/-- HEAD_NOT_READY with the card LOADED and the engine idle: the fiche ends and EJECT REJECT is sent (R15, R24). -/
theorem jobTests_headNotReady (hj : s.job.state = .opening) (hf : s.job.fiche = some f) (hn : f.outcome = none)
    (hd : s.job.fopenedDue = false) (hb : s.intake.band = none) (he : s.engine.state = .idle)
    (hx : s.engine.exposure = none) (hr : CardRests s.transport) :
    jobTests (takeHeadNotReady s) = { s with
      job := { s.job with
        state := .ending, onStop := none
        fiche := some { f with outcome := some .headNotReady, stack := some .reject } }
      intake := s.intake.cleared
      transport := Clauses.ejectSent .reject s.transport } := by
  have taken : takeHeadNotReady s = endingActions (setOutcome .headNotReady s) := by
    simp [takeHeadNotReady, awaitsOpening, hj]
  have kept : (endingOf (f.withOutcome .headNotReady) s).engine = s.engine := carriedEngine_no_exposure hx _
  rw [taken, endingActions_setOutcome _ hf hb, stopEngine_idle (by rw [kept, he]),
    jobTests_stopped (s := endingOf (f.withOutcome .headNotReady) s) rfl rfl hd rfl (by rw [kept, he]) (by rw [kept, hx])
      hr.onStage, disposed_rests _ (by exact hr.1), withOutcome_none hn]
  simp only [endingOf, carriedEngine_no_exposure hx]

theorem timersParkTheHead : Clauses.TimersParkTheHead := by
  intro s parked
  refine ⟨fun h => ?_, fun hw ht hd ho => ?_⟩
  · simp only [exec, execParkTimerExpiry, h, if_true]
    rfl
  have expires : exec .warmTimerExpiry s = .next (linkFinish s (jobTests (takeHeadNotReady (s.setHead parked)))) :=
    exec_conclude (by rw [expireWarm, if_pos ⟨hw, ht⟩]; rfl)
  rw [expires]
  refine ⟨fun hj => ?_, fun f hj hf hn hb he hx hcard hi hp => ?_⟩
  · have untouched : takeHeadNotReady (s.setHead parked) = s.setHead parked := by
      simp [takeHeadNotReady, awaitsOpening, hj]
    rw [untouched, jobTests_idle (s := s.setHead parked) hj hd ho]
    rfl
  · rw [jobTests_headNotReady (s := s.setHead parked) hj hf hn hd hb he hx ⟨.inl hcard, hi, hp⟩, ← ho]
    rfl

theorem biasFollowsTheHeadState : Clauses.BiasFollowsTheHeadState := by
  intro s
  cases h : s.head.state <;> simp [State.emitterBias, h]

/-- Settles O53: the pins, the request for READY, the return to IDLE, the timers and the bias. -/
theorem pinsAndTimersMoveTheHeadState : Obligations.PinsAndTimersMoveTheHeadState :=
  ⟨pinsRestartTheHeadMonitor, timersParkTheHead, biasFollowsTheHeadState⟩

end Sys2Proof.Machine
end

section
/-!
PROOFS. O56: the replies that return the job to IDLE.
-/

open Sys2Proof

namespace Sys2Proof.Machine

variable {s : State} {f : Fiche}

/-! ### The ends of ENDING and of a HOME -/

/-- ENDING is at its end with the fiche closed before (R25, R33). -/
theorem jobTests_ended_closed (hj : s.job.state = .ending) (hf : s.job.fiche = some f) (hc : f.closed = true)
    (hd : s.job.fopenedDue = false) (ho : s.job.onStop = none) (he : s.engine.state = .idle)
    (ht : transportQuiet s.transport = true) :
    jobTests s = enterIdle (s.setFiche { f with stack := some (f.stack.getD .noStack) }) := by
  have completes : completeEnding s = enterIdle (s.setFiche { f with stack := some (f.stack.getD .noStack) }) := by
    simp [completeEnding, he, ho, ht, hf, hc, Fiche.withDefaultStack]
  rw [jobTests_ending hj hd, takeStopSignal_none ho, completes, dueLineStart_no_job (.inr (.inl (enterIdle_state _)))]

theorem jobTests_ended_no_fiche (hj : s.job.state = .ending) (hf : s.job.fiche = none) (hd : s.job.fopenedDue = false)
    (ho : s.job.onStop = none) (he : s.engine.state = .idle) (ht : transportQuiet s.transport = true) :
    jobTests s = enterIdle s := by
  have completes : completeEnding s = enterIdle s := by simp [completeEnding, he, ho, ht, hf]
  rw [jobTests_ending hj hd, takeStopSignal_none ho, completes, dueLineStart_no_job (.inr (.inl (enterIdle_state _)))]

/-- The card out of stock, before the job controller takes the notice (R142). -/
def stockOut (s : State) : State :=
  s.setTransport { s.transport with timer := none, inFlight := none, card := .empty, position := none }

/-- The NO_STOCK of the LOAD in flight, with no request pending (R139, R142). -/
theorem exec_noStock {n : CommandNumber} (hi : s.transport.inFlight = some { number := n, motion := .load })
    (hp : s.transport.pendingReq = none) :
    exec (.fault n .noStock) s = .next (linkFinish s (jobTests (takeNoStock (stockOut s)))) := by
  have none_waits : loadNoStock s = takeNoStock (stockOut s) := takePending_none (by simpa [stockOut] using hp)
  exact exec_conclude (by simp [takeFault, hi, none_waits])

theorem homeDoneReturnsToIdle : Clauses.HomeDoneReturnsToIdle := by
  intro s n hi hp hd ho he hx hcase
  have quiet : transportQuiet (arrived .home s).transport = true := by
    simp [transportQuiet, arrived, Motion.cardDone, hp]
  rw [exec_done hi, motionDone_eq]
  obtain ⟨hj, hf⟩ | hj := hcase
  · have told : tellDone .home (arrived .home s) = arrived .home s := by simp [tellDone, arrived, hj]
    rw [told, takePending_none (by exact hp), jobTests_ended_no_fiche (by exact hj) (by exact hf) (by exact hd)
      (by exact ho) (by exact he) quiet]
    rfl
  · have told : tellDone .home (arrived .home s) = enterIdle (arrived .home s) := by simp [tellDone, arrived, hj]
    rw [told, takePending_none (by simpa [arrived] using hp),
      jobTests_idle (enterIdle_state _) (by simpa [arrived] using hd) (by simpa [arrived] using ho)]
    rfl

theorem endingCompletesWithFclosed : Clauses.EndingCompletesWithFclosed := by
  intro s c k f hi hc hp hj hf hd ho he hx g arr
  have ends : exec c s = .next (linkFinish s (jobTests arr)) := by
    obtain ⟨number, motion⟩ := k
    obtain ⟨rfl, hm⟩ | ⟨rfl, hm⟩ := hc
    · have told : tellDone motion (arrived motion s) = arr := by
        obtain ⟨st, rfl⟩ | rfl := hm
        · rfl
        · simp only [tellDone, arrived, State.setTransport, hj, reduceCtorEq, if_false]
          rfl
      rw [exec_done hi, motionDone_eq, told, takePending_none (by exact hp)]
    · obtain rfl : motion = .load := hm
      have untouched : takeNoStock (stockOut s) = arr := by
        simp only [takeNoStock, awaitsOpening, stockOut, State.setTransport, hj]
        rfl
      rw [exec_noStock hi hp, untouched]
  have quiet : transportQuiet arr.transport = true := by simp [transportQuiet, arr, hp]
  rw [ends]
  refine ⟨fun hcl => ?_, fun hcl hs => ?_⟩
  · rw [jobTests_ended_closed (s := arr) hj hf hcl hd ho he quiet]
    rfl
  · rw [jobTests_ended (s := arr) hj hf hcl hd ho he quiet hs]

/-! ### The closing EJECT's DONE and NO_STOCK -/

theorem dropBand_band (s : State) : (dropBand s).intake.band = none := by
  unfold dropBand
  split
  · simp [removeHead, raiseCounter]
  · simp_all

/-- A second clearing after a first changes nothing: no band is left to drop (R63). -/
theorem engineToIdle_clearIntake_twice {w v : State} (hv : v = clearIntake w ∨ v = engineToIdle (clearIntake w)) :
    engineToIdle (clearIntake v) = engineToIdle (clearIntake w) := by
  have band : v.intake.band = none := by
    rcases hv with rfl | rfl <;> simp only [clearIntake_eq, engineToIdle] <;> exact dropBand_band w
  rw [engineToIdle_clearIntake v, dropBand_none band]
  obtain rfl | rfl := hv <;> simp only [clearIntake_eq] <;> rfl

/-- NO_STOCK before the opening: the outcome and the stack, and page intake and the engine cleared (R14). -/
theorem takeNoStock_taken (ha : awaitsOpening s = true) (hf : s.job.fiche = some f) (hn : f.outcome = none) :
    takeNoStock s = clearIntake (s.setFiche { f with outcome := some .noStock, stack := some .noStack }) ∨
      takeNoStock s = engineToIdle (clearIntake
        (s.setFiche { f with outcome := some .noStock, stack := some .noStack })) := by
  have recorded : setStack .noStack (setOutcome .noStock s)
      = s.setFiche { f with outcome := some .noStock, stack := some .noStack } := by
    rw [setOutcome_eq _ hf, withOutcome_none hn]
    rfl
  simp only [takeNoStock, ha, if_true, recorded]
  split
  · exact .inr rfl
  · exact .inl rfl

/-- A closing changes the link, by the link alone, and the fiche record. -/
theorem closedWithFclosed_eq {w t : State} (g : Fiche) (hl : t.link = w.link) : Clauses.closedWithFclosed g t = { t with
    link := (composeSlot .job (Clauses.fclosed g) w).link
    job := { t.job with fiche := some { g with closed := true } } } := by
  rw [Clauses.closedWithFclosed, composeSlot_eq_of_link .job _ hl]

theorem ficheClosesWithFclosed : Clauses.FicheClosesWithFclosed := by
  intro s n f hf hd ho hs hp arr
  refine ⟨fun st hi hj he hx hm hout => ?_, fun hi hj hm hn he => ?_⟩
  · rw [exec_done hi, motionDone_eq, takePending_none (by exact hp),
      jobTests_ejected (f := f) (by exact hj) (by exact hf) hout (by exact hd) (by exact ho)
        (by simp [transportQuiet, tellDone, arrived, Motion.cardDone, hp]) (by exact hs)]
    rfl
  · intro g u
    have awaits : awaitsOpening (stockOut s) = true := by
      rcases hj with h | h <;> simp [awaitsOpening, stockOut, openingMet, h, hf, hm]
    have taken := takeNoStock_taken awaits (show (stockOut s).job.fiche = some f from hf) hn
    have result : engineToIdle (clearIntake ((stockOut s).setFiche g)) = { u with
        job := { s.job with fiche := some g }
        intake := { u.intake with state := .pageIdle, contexts := [], orphan := none, store := [] }
        engine := Clauses.idled s.engine
        transport := arr } := by
      rw [engineToIdle_clearIntake]
      simp only [dropBand, u]
      by_cases hb : s.intake.band.isSome = true
      · simp only [stockOut, State.setFiche_intake, State.setTransport_intake, hb, if_true]
        rfl
      · simp only [stockOut, State.setFiche_intake, State.setTransport_intake, hb]
        rfl
    have kept : (takeNoStock (stockOut s)).job = { s.job with fiche := some g } ∧
        slotFree (takeNoStock (stockOut s)) .job = true := by
      have hslots : slotFree (stockOut s) .job = true := hs
      rcases taken with h | h <;> rw [h] <;> simpa [stockOut, slotFree, g] using hslots
    rw [exec_noStock hi hp, jobTests_noStock (f := g) (by rw [kept.1]; exact hj) (by rw [kept.1]) rfl
      (by rw [kept.1]; exact hd) (by rw [kept.1]; exact ho) kept.2, engineToIdle_clearIntake_twice taken, result,
      closedWithFclosed_eq (w := u) g (by rfl), closedWithFclosed_eq (w := u) g (by rfl)]
    have job : u.job = s.job := by
      simp only [u]
      split <;> simp
    rw [job]

/-- Settles O56: by the command in flight and the job state. -/
theorem repliesReturnTheJobToIdle : Obligations.RepliesReturnTheJobToIdle :=
  ⟨ficheClosesWithFclosed, homeDoneReturnsToIdle, endingCompletesWithFclosed⟩

end Sys2Proof.Machine
end

section
/-!
PROOFS. O33: a transport fault, from the report and page intake through the engine's part to the FAULTED job's FCLOSED.
-/

open Sys2Proof

namespace Sys2Proof.Machine

variable {s : State} {f : Fiche} {code : TransportCode} {k : InFlight}

/-! ### The alert -/

/-- The ALERT of kind TRANSPORT (R145). -/
def faultAlert (code : TransportCode) (k : InFlight) (s : State) : Report :=
  .transportAlert
    { code := code, command := k.motion.word, number := k.number, cardBefore := s.transport.card
      arguments := k.motion.args, seq := s.ficheSeq }

/-- The ALERT composed where alert reports are enabled (R145). -/
def alerted (r : Report) (s : State) : State := if s.tables.unit.alertReports = true then composeDiscard r s else s

theorem alerted_on (h : s.tables.unit.alertReports = true) (r : Report) : alerted r s = composeDiscard r s := if_pos h

theorem alerted_off (h : ¬ s.tables.unit.alertReports = true) (r : Report) : alerted r s = s := if_neg h

/-- The ALERT changes the link alone, by the link and the unit settings alone. -/
theorem alerted_eq_of_link {t : State} (r : Report) (hl : t.link = s.link) (ht : t.tables = s.tables) :
    alerted r t = { t with link := (alerted r s).link } := by
  by_cases h : s.tables.unit.alertReports = true
  · rw [alerted_on (by rw [ht, h]), alerted_on h, composeDiscard_eq_of_link r hl]
  · rw [alerted_off (by rw [ht]; exact h), alerted_off h, ← hl]

theorem transportAlert_eq (t : Transport) :
    transportAlert code k s.transport.card (s.setTransport t) = (alerted (faultAlert code k s) s).setTransport t := by
  have report : transportAlert code k s.transport.card (s.setTransport t)
      = alerted (faultAlert code k s) (s.setTransport t) := rfl
  rw [report, alerted_eq_of_link (s := s) _ (State.setTransport_link ..) (State.setTransport_tables ..),
    alerted_eq_of_link (s := s) (t := s) (faultAlert code k s) rfl rfl]
  rfl

theorem dropBand_some (h : s.intake.band.isSome = true) : dropBand s = removeHead s := if_pos h

theorem alerted_frame (r : Report) (s : State) : (alerted r s).job = s.job ∧ (alerted r s).tables = s.tables ∧
    (alerted r s).intake = s.intake ∧ (alerted r s).engine = s.engine ∧ (alerted r s).link.slots = s.link.slots := by
  unfold alerted
  split <;> simp

/-- A band's removal and the ALERT's composition do not meet: the one changes the inbound queue, the other the reports. -/
theorem dropBand_alerted (r : Report) (s : State) : dropBand (alerted r s) = alerted r (dropBand s) := by
  have band : (alerted r s).intake.band = s.intake.band := by simp [alerted_frame]
  have removes : removeHead (alerted r s) = alerted r (removeHead s) := by
    by_cases h : s.tables.unit.alertReports = true
    · rw [alerted_on h, alerted_on (by exact h)]
      have up : (removeHead s).linkUp = s.linkUp := rfl
      have room : queueRoom (removeHead s) = queueRoom s := rfl
      simp only [composeDiscard, up, room]
      split
      · split <;> rfl
      · rfl
    · rw [alerted_off h, alerted_off (by exact h)]
  by_cases hb : s.intake.band.isSome = true
  · rw [dropBand_some hb, dropBand_some (by rw [band, hb]), removes]
  · have none_in_hand := Option.not_isSome_iff_eq_none.mp hb
    rw [dropBand_none none_in_hand, dropBand_none (by rw [band, none_in_hand])]

/-! ### The fault's part before the engine's -/

/-- The transport controller after the fault, a request that waits kept only as a HOME (R143, R148). -/
def Transport.faulted (code : TransportCode) (t : Transport) : Transport :=
  { t with timer := none, inFlight := none, faultCode := code, card := .fault, position := none }

/-- The part when the fault reaches the engine (R27, R63, R89, R143, R145). -/
def faultNoticed (code : TransportCode) (k : InFlight) (s : State) : State :=
  { alerted (faultAlert code k s) (dropBand s) with
    job := { s.job with state := .faulted, fiche := s.job.fiche.map (·.withFault code) }
    intake := (dropBand s).intake.cleared
    engine := carriedEngine s.engine s.intake.contexts
    transport := (s.transport.faulted code).homeKept }

/-- The record's part (R27): the code and the outcome, where it is not closed. -/
theorem recordFault_eq (code : TransportCode) (s : State) :
    recordFault code s = s.setJob { s.job with fiche := s.job.fiche.map (·.withFault code) } := by
  unfold recordFault
  cases h : s.job.fiche with
  | none =>
    have keeps : s.setJob { s.job with fiche := none } = s := by
      rw [← h]
      rfl
    exact keeps.symm
  | some f => rfl

theorem takeTransportFault_eq (hj : s.job.state ≠ .idle) (ho : s.job.onStop = none) :
    takeTransportFault code s = engineFault (clearIntake (s.setJob { s.job with
      state := .faulted, fiche := s.job.fiche.map (·.withFault code) })) := by
  rw [takeTransportFault, if_neg hj, recordFault_eq]
  simp only [State.setJob_job, ho, keepFullReset, reduceCtorEq, if_false]
  rw [← ho]
  rfl

/-- The clearing of page intake reads of the rest of the part the engine alone (R63). -/
theorem clearIntake_setJob_setTransport (t : Transport) (j : Job) (s : State) :
    clearIntake ((s.setTransport t).setJob j) = ((clearIntake s).setTransport t).setJob j := by
  have drop : dropBand ((s.setTransport t).setJob j) = ((dropBand s).setTransport t).setJob j := by
    unfold dropBand
    by_cases h : s.intake.band.isSome = true
    · rw [if_pos h, if_pos (by exact h)]
      rfl
    · rw [if_neg h, if_neg (by exact h)]
  rw [clearIntake_eq, clearIntake_eq, drop]
  rfl

theorem transportFault_eq (hj : s.job.state ≠ .idle) (ho : s.job.onStop = none) :
    transportFault code k s = takePending (engineFault (faultNoticed code k s)) := by
  have alert : transportAlert code k s.transport.card (discardPending (s.setTransport (s.transport.faulted code)))
      = (alerted (faultAlert code k s) s).setTransport (s.transport.faulted code).homeKept := by
    rw [discardPending_eq]
    exact transportAlert_eq _
  obtain ⟨job, -, hintake, hengine, -⟩ := alerted_frame (faultAlert code k s) s
  obtain ⟨-, -, hdropped, -, -⟩ := alerted_frame (faultAlert code k s) (dropBand s)
  have cleared : clearIntake (alerted (faultAlert code k s) s) = { alerted (faultAlert code k s) (dropBand s) with
      intake := (dropBand s).intake.cleared, engine := carriedEngine s.engine s.intake.contexts } := by
    rw [clearIntake_eq, dropBand_alerted, hintake, hengine, hdropped]
    rfl
  have fault : transportFault code k s = takePending (takeTransportFault code
      (transportAlert code k s.transport.card (discardPending (s.setTransport (s.transport.faulted code))))) := rfl
  rw [fault, alert, takeTransportFault_eq (by simpa [job] using hj) (by simpa [job] using ho),
    clearIntake_setJob_setTransport, cleared]
  simp only [State.setTransport_job, job]
  rfl

/-! ### What follows the engine's part -/

/-- The transport controller once a pending HOME, if any, has been sent (R143, R148). -/
def Transport.faultTaken (code : TransportCode) (t : Transport) : Transport :=
  let home : Bool := t.pendingReq == some .home;
  { t with
    card := if home = true then .homing else .fault
    inFlight := if home = true then some { number := t.nextNumber, motion := .home } else none
    nextNumber := if home = true then t.nextNumber + 1 else t.nextNumber
    pendingReq := none, timer := none, faultCode := code, position := none }

theorem takePending_faulted {t : Transport} (h : s.transport = (t.faulted code).homeKept) :
    takePending s = s.setTransport (t.faultTaken code) := by
  by_cases hp : t.pendingReq = some .home
  · have kept : s.transport = { t.faulted code with pendingReq := some .home } := by
      simp [h, Transport.homeKept, Transport.faulted, hp]
    have sends : takePending s = sendMotion .home (s.setTransport { s.transport with pendingReq := none }) := by
      simp [takePending, kept, sendOrDiscard, Motion.sendable]
    rw [sends, sendMotion, kept]
    simp [Transport.faultTaken, Transport.faulted, hp, State.setTransport, Motion.card]
  · have gone : s.transport = { t.faulted code with pendingReq := none } := by
      simp [h, Transport.homeKept, Transport.faulted, hp]
    have taken : s.transport = t.faultTaken code := by
      rw [gone]
      simp [Transport.faultTaken, Transport.faulted, hp]
    rw [takePending_none (by rw [gone]), ← taken]
    rfl

/-- FCLOSED falls due in FAULTED for a record that is not closed, where the slot is empty (R27). -/
theorem jobTests_faulted_record (hj : s.job.state = .faulted) (hf : s.job.fiche = some f) (hd : s.job.fopenedDue = false)
    (ho : s.job.onStop = none) (he : s.engine.state = .idle) :
    jobTests s = if f.closed = false ∧ slotFree s .job = true then Clauses.closedWithFclosed f s else s := by
  cases hc : f.closed with
  | false =>
    rw [jobTests_faulted_idle hj hf hc hd ho he]
    simp
  | true =>
    have completes : completeJob s = s := by simp [completeJob, hj, hf, hc]
    rw [jobTests_faulted hj hd ho, completes, dueLineStart_no_job (.inr (.inr hj))]
    simp

/-- In FAULTED nothing is due while the engine is busy, nor without a record (R27). -/
theorem jobTests_faulted_waits (hj : s.job.state = .faulted) (hd : s.job.fopenedDue = false) (ho : s.job.onStop = none)
    (h : s.engine.state ≠ .idle ∨ s.job.fiche = none) : jobTests s = s := by
  have completes : completeJob s = s := by
    cases hf : s.job.fiche with
    | none => simp [completeJob, hj, hf]
    | some f => simp [completeJob, hj, hf, h.resolve_right (by simp [hf])]
  rw [jobTests_faulted hj hd ho, completes, dueLineStart_no_job (.inr (.inr hj))]

/-- A composition leaves the other producers' slots as they are (R199). -/
theorem slotFree_composeSlot {p q : Producer} (h : q ≠ p) (r : Report) (s : State) :
    slotFree (composeSlot p r s) q = slotFree s q := by
  unfold composeSlot
  (repeat' split) <;> simp [slotFree, placeReport, h.symm]

/-! ### The fault by the engine's state -/

theorem exec_transportFault {c : Instr} (hi : s.transport.inFlight = some k)
    (hc : (c = .fault k.number .jam ∧ code = .jam) ∨ (c = .fault k.number .limit ∧ code = .limit) ∨
      (c = .motionTimeout ∧ code = .timeout ∧ s.transport.timer.isSome = true))
    (hj : s.job.state ≠ .idle) (ho : s.job.onStop = none) :
    exec c s = .next (linkFinish s (jobTests (takePending (engineFault (faultNoticed code k s))))) := by
  rw [← transportFault_eq hj ho]
  obtain ⟨rfl, rfl⟩ | ⟨rfl, rfl⟩ | ⟨rfl, rfl, ht⟩ := hc
  · exact exec_conclude (by simp [takeFault, hi])
  · exact exec_conclude (by simp [takeFault, hi])
  · obtain ⟨n, hn⟩ := Option.isSome_iff_exists.mp ht
    exact exec_conclude (by simp [takeTimeout, hi, hn])

/-- The part once the fault is taken, with this record and engine (R27, R143, R148). -/
def faultSettled (code : TransportCode) (k : InFlight) (fiche : Option Fiche) (e : Engine) (s : State) : State :=
  { (faultNoticed code k s) with
    job := { s.job with state := .faulted, fiche := fiche }
    engine := e
    transport := s.transport.faultTaken code }

theorem slotFree_faultNoticed (p : Producer) : slotFree (faultNoticed code k s) p = slotFree s p := by
  simp [slotFree, faultNoticed, alerted_frame]

theorem engineFault_idle (h : s.engine.state = .idle) : engineFault s = s := by
  unfold engineFault
  split <;> simp_all

/-- An engine without a frame, IDLE once the fault has reached it (R89). -/
theorem engineFault_no_frame {e : Engine} (he : (s.engine.state = .idle ∧ s.engine.exposure = none ∧ e = s.engine) ∨
      (s.engine.state = .waitOpen ∧ e = Clauses.idled s.engine)) :
    takePending (engineFault (faultNoticed code k s))
      = faultSettled code k (s.job.fiche.map (·.withFault code)) e s := by
  have reached : engineFault (faultNoticed code k s) = { faultNoticed code k s with engine := e } := by
    obtain ⟨hi, hx, rfl⟩ | ⟨hi, rfl⟩ := he
    · have same : (faultNoticed code k s).engine = s.engine := carriedEngine_no_exposure hx _
      rw [engineFault_idle (by rw [same, hi]), ← same]
    · have waits : (faultNoticed code k s).engine.state = .waitOpen := by simp [faultNoticed, hi]
      rw [engineFault, waits, ← idled_carried s.engine s.intake.contexts]
      rfl
  rw [reached, takePending_faulted (code := code) (t := s.transport) rfl]
  rfl

/-- A frame's end reads of the rest of the part the link alone. -/
theorem frameEnded_eq_of_link {a b : State} {e : Cell} {x : Exposure} {r : FrameResult} (hl : a.link = b.link) :
    Clauses.frameEnded f e x r a = { a with
      link := (Clauses.frameEnded f e x r b).link
      job := { a.job with fiche := some (Clauses.withResult f e x r) }
      engine := { a.engine with state := .frameEnd, exposure := some x, holdTimer := none, driven := none } } := by
  rw [Clauses.frameEnded, composeSlot_eq_of_link .engine _ hl]
  rfl

/-- The result of a context that is voided before its frame start (R90). -/
def voidedBeforeStart (k : IntakeFlags) : FrameResult :=
  { final := .void, flags := { intake := k, engine := EngineFlags.none }, holdCount := 0, a := 0, p := 0
    linesExposed := 0, linesFlooded := 0 }

/-- A MOVING engine, the EXPOSING context, and the cell that is still ASSIGNED to it (R90). -/
structure MovingTo (s : State) (g : Fiche) (x : Exposure) (ctx : Context) (e : Cell) : Prop where
  moving : s.engine.state = .moving
  exposure : s.engine.exposure = some x
  not_carried : x.carried = none
  context : ∃ rest, s.intake.contexts = ctx :: rest
  cell : g.map[x.cell]? = some e
  assigned : e.state = .assigned

/-- The MOVING engine keeps its context's flags at the clearing (R88). -/
theorem faultNoticed_engine {g : Fiche} {x : Exposure} {ctx : Context} {e : Cell} (h : MovingTo s g x ctx e) :
    (faultNoticed code k s).engine = { s.engine with exposure := some { x with carried := some ctx.flags } } := by
  obtain ⟨rest, hctx⟩ := h.context
  simp only [faultNoticed, hctx]
  exact carriedEngine_keeps h.exposure h.not_carried (by simp [h.moving, EngineState.keepsFlags])

/-- It voids its context before its frame start (R10, R90). -/
theorem engineFault_moving {g : Fiche} {x : Exposure} {ctx : Context} {e : Cell} (h : MovingTo s g x ctx e)
    (hg : s.job.fiche.map (·.withFault code) = some g) :
    let u := Clauses.frameEnded g e { x with carried := some ctx.flags } (voidedBeforeStart ctx.flags)
      (faultNoticed code k s);
    engineFault (faultNoticed code k s) = if slotFree u .engine = true then engineToIdle u else u := by
  intro u
  have engine := faultNoticed_engine (code := code) (k := k) h
  have hands : engineFault (faultNoticed code k s)
      = handOver .assigned { x with carried := some ctx.flags } (voidedBeforeStart ctx.flags) (faultNoticed code k s) := by
    simp only [engineFault, engine, h.moving]
    rfl
  have ends := frameResultsAreRecordedAndReported (faultNoticed code k s) .assigned { x with carried := some ctx.flags }
    (voidedBeforeStart ctx.flags) g e hg h.cell h.assigned (by simp [isExposingCell, engine])
  rw [hands, ends, release_no_context (x := { x with carried := some ctx.flags }) (by rfl)
    (by simp [Clauses.frameEnded, faultNoticed, Intake.cleared])]

/-- FCLOSED follows the void of a MOVING engine's context unless its FRAME has to wait (R27, R81, R82). -/
theorem jobTests_faulted_moving {g : Fiche} {x : Exposure} {ctx : Context} {e : Cell} (h : MovingTo s g x ctx e)
    (hg : s.job.fiche.map (·.withFault code) = some g) (hd : s.job.fopenedDue = false) (ho : s.job.onStop = none) :
    let v := Clauses.frameEnded g e { x with carried := some ctx.flags } (voidedBeforeStart ctx.flags)
      (faultSettled code k s.job.fiche s.engine s);
    let w := { v with engine := Clauses.idled v.engine };
    let g1 := Clauses.withResult g e x (voidedBeforeStart ctx.flags);
    jobTests (takePending (engineFault (faultNoticed code k s))) = if slotFree v .engine = true then
      (if g1.closed = false ∧ slotFree s .job = true then Clauses.closedWithFclosed g1 w else w) else v := by
  intro v w g1
  let u := Clauses.frameEnded g e { x with carried := some ctx.flags } (voidedBeforeStart ctx.flags)
    (faultNoticed code k s)
  have settles : v = u.setTransport (s.transport.faultTaken code) := by
    simp only [v, u]
    rw [frameEnded_eq_of_link (a := faultSettled code k s.job.fiche s.engine s) (b := faultNoticed code k s) rfl,
      frameEnded_eq_of_link (a := faultNoticed code k s) (b := faultNoticed code k s) rfl, faultNoticed_engine h]
    rfl
  have engine_slot : slotFree v .engine = slotFree u .engine := by rw [settles]; rfl
  have job_slot : slotFree v .job = slotFree s .job := by
    rw [settles]
    exact (slotFree_composeSlot (by simp) _ _).trans (slotFree_faultNoticed .job)
  have job : v.job = { s.job with state := .faulted, fiche := some g1 } := by rw [settles]; rfl
  have noticed : u.transport = (s.transport.faulted code).homeKept := by simp [u, Clauses.frameEnded, faultNoticed]
  rw [engineFault_moving h hg, engine_slot]
  split
  · have idle : takePending (engineToIdle u) = w := by
      simp only [w]
      rw [takePending_faulted (code := code) (t := s.transport) (by exact noticed), settles]
      rfl
    rw [idle, jobTests_faulted_record (s := w) (f := g1) (by simp [w, job]) (by simp [w, job]) (by simp [w, job, hd])
      (by simp [w, job, ho]) (by rfl), ← job_slot]
    rfl
  · rw [takePending_faulted (code := code) (t := s.transport) noticed, ← settles, jobTests_faulted_waits (by simp [job])
      (by simp [job, hd]) (by simp [job, ho]) (.inl (by simp [v, Clauses.frameEnded]))]

/-- Settles O33: by the engine's state. -/
theorem transportFaultFaultsTheJob : Obligations.TransportFaultFaultsTheJob := by
  intro s c k code hi hc hj hd ho home s0 alert faulted
  have faults := exec_transportFault hi hc hj ho
  have halert : alert = alerted (faultAlert code k s) (dropBand s) := by
    rw [alerted, (dropBand_frame s).2.1]
    rfl
  have settled : ∀ g e, faultSettled code k g e s
      = { faulted with job := { s.job with state := .faulted, fiche := g }, engine := e } := by
    intro g e
    simp only [faulted, halert]
    rfl
  have engine : faulted.engine = s.engine := by simp [faulted, halert, alerted_frame]
  have slot : ∀ g e, slotFree (faultSettled code k g e s) .job = slotFree s .job := fun g e =>
    slotFree_faultNoticed (code := code) (k := k) .job
  refine ⟨fun hf he hx => ?_, fun f hf => ?_⟩
  · rw [faults, engineFault_no_frame (.inl ⟨he, hx, rfl⟩), hf, Option.map_none,
      jobTests_faulted_waits (by rfl) (by exact hd) (by exact ho) (.inr (by rfl)), settled, ← engine, ← hf]
  intro g ended
  have ended_eq : ∀ h u, ended h u = if h.closed = false ∧ slotFree s .job = true then
      Clauses.closedWithFclosed h { u with job := { u.job with fiche := some h } }
      else { u with job := { u.job with fiche := some h } } := by
    intro h u
    simp only [ended]
    split
    · rw [closedWithFclosed_eq (w := u) h rfl, closedWithFclosed_eq (w := u) h (by rfl)]
    · rfl
  refine ⟨fun e he => ?_, fun x ctx rest e hm hx hxc hmin hmax hctx he hold hcl => ?_⟩
  · have idle : e.state = .idle := by
      obtain ⟨hi, -, rfl⟩ | ⟨-, rfl⟩ := he
      · exact hi
      · rfl
    rw [faults, engineFault_no_frame he, hf, Option.map_some,
      jobTests_faulted_record (f := g) (by rfl) (by rfl) (by exact hd) (by exact ho) (by exact idle), slot, settled,
      ended_eq]
    rfl
  · intro r v
    have notes : s.job.fiche.map (·.withFault code) = some g := by rw [hf]; rfl
    have map : g.map = f.map := by simp [g, hcl]
    have hfaulted : faulted = faultSettled code k s.job.fiche s.engine s := by rw [settled, ← engine]
    have job : v.job.fiche = some (Clauses.withResult g e x r) := rfl
    have same : ({ v.job with fiche := some (Clauses.withResult g e x r) } : Job) = v.job := by rw [← job]
    rw [faults, jobTests_faulted_moving ⟨hm, hx, hxc, ⟨rest, hctx⟩, by rw [map]; exact he, hold⟩ notes hd ho, ended_eq,
      same, ← hfaulted]
    rfl

end Sys2Proof.Machine
end

section
/-!
PROOFS. Line starts where frames go on (R71, R75, R77), and O44: the DONE of a MOVE.
-/

open Sys2Proof

namespace Sys2Proof.Machine

variable {s : State} {f : Fiche} {x : Exposure}

/-! ### Line starts -/

/-- The store head is no line of this context. -/
def NoLineReady (s : State) (x : Exposure) : Prop := ∀ l ls, s.intake.store = l :: ls → l.cell ≠ x.cell

theorem dueLineStart_underrun (hx : s.engine.exposure = some x) (hdr : s.engine.driven = none)
    (hm : mayDrive s x = true) (he : s.engine.state = .exposing) (hn : NoLineReady s x) :
    dueLineStart s = underrun x s := by
  cases hstore : s.intake.store with
  | nil => simp [dueLineStart, hx, hdr, hm, he, hstore]
  | cons l ls => simp [dueLineStart, hx, hdr, hm, he, hstore, hn l ls hstore]

/-- An underrun under a hold limit begins a hold (R75). -/
theorem underrun_holds (h : 0 < s.profile.holdLimit) : underrun x s = { s with engine := { s.engine with
    state := .holding, holdTimer := some s.profile.holdLimit
    exposure := some { x with flags := { x.flags with held := true }, holdCount := min 255 (x.holdCount + 1) } } } := by
  rw [underrun, if_neg (by omega)]
  rfl

theorem underrun_voids (h : s.profile.holdLimit = 0) : underrun x s = voidFrame s := by rw [underrun, if_pos h]

/-- A frame voided where lines may be driven drives its first flood line at once (R77, R78). -/
theorem voidFrame_floods (hx : s.engine.exposure = some x) (hm : mayDrive s x = true) :
    (voidFrame s).engine.state = .flooding ∧ (voidFrame s).engine.driven = some .flood := by
  have drives : mayDrive ((purgeExposing s).setEngine
      { s.engine with state := .flooding, holdTimer := none, driven := none }) x = true := by
    simpa [mayDrive] using hm
  have engine : (purgeExposing s).engine = s.engine := by simp
  have floods : voidFrame s = startFlood x ((purgeExposing s).setEngine
      { s.engine with state := .flooding, holdTimer := none, driven := none }) := by
    simp only [voidFrame, engine, State.setEngine_engine, hx]
  rw [floods, startFlood, if_pos drives]
  exact ⟨rfl, rfl⟩

/-- What a line start with frames going on leaves is either driven or a hold (R71, R75, R77). -/
theorem dueLineStart_settles (hx : s.engine.exposure = some x) (hdr : s.engine.driven = none)
    (hm : mayDrive s x = true) (he : s.engine.state = .exposing) :
    (dueLineStart s).engine.state ≠ .idle ∧ dueLineStart (dueLineStart s) = dueLineStart s := by
  have underruns : (underrun x s).engine.state ≠ .idle ∧ dueLineStart (underrun x s) = underrun x s := by
    by_cases h : s.profile.holdLimit = 0
    · obtain ⟨state, driven⟩ := voidFrame_floods hx hm
      rw [underrun_voids h]
      exact ⟨by simp [state], dueLineStart_driven (by simp [driven])⟩
    · rw [underrun_holds (by omega)]
      exact ⟨by simp, dueLineStart_other_state (by simp) (by simp)⟩
  cases hstore : s.intake.store with
  | nil =>
    rw [dueLineStart_underrun hx hdr hm he (by simp [NoLineReady, hstore])]
    exact underruns
  | cons l ls =>
    by_cases hl : l.cell = x.cell
    · rw [dueLineStart_image hx hdr hm he hstore hl]
      exact ⟨by simp [startImage], dueLineStart_driven (by simp [startImage])⟩
    · rw [dueLineStart_underrun hx hdr hm he (by
        intro l' ls' h
        rw [hstore] at h
        cases h
        exact hl)]
      exact underruns

/-- Where frames go on the job controller has nothing to do after a line start (R18, R71). -/
theorem jobTests_dueLineStart (hg : Clauses.framesGoOn s) (hx : s.engine.exposure = some x)
    (hdr : s.engine.driven = none) (hm : mayDrive s x = true) (he : s.engine.state = .exposing) :
    jobTests (dueLineStart s) = dueLineStart s := by
  obtain ⟨busy, settled⟩ := dueLineStart_settles hx hdr hm he
  have goes : Clauses.framesGoOn (dueLineStart s) := by simpa [Clauses.framesGoOn] using hg
  rw [jobTests_framesGoOn goes fun _ => .inr busy, settled]

/-! ### When a line may be driven -/

theorem linesNeedHeadCardAndJob : Clauses.LinesNeedHeadCardAndJob := by
  intro s x
  simp [mayDrive, and_assoc, or_assoc]

/-! ### The MOVE's DONE -/

/-- The frame's accounts cleared at its start (R70). -/
def Exposure.started (x : Exposure) : Exposure :=
  { x with
    linesExposed := 0, linesFlooded := 0, a := 0, p := 0, holdCount := 0, flags := EngineFlags.none
    mMin := none, mMax := none }

theorem moveDoneStartsTheFrame : Clauses.MoveDoneStartsTheFrame := by
  intro s n x px py f e c rest hi hp he hx hst hctx hcell hg hf hmap hold hready x0 u
  have job : s.job.state = .opened ∨ s.job.state = .closing := hg.2.2.imp id (·.1)
  have drives : mayDrive u x0 = true := by
    rcases job with h | h <;> simp [mayDrive, u, x0, hready, hst, h]
  have cell : startCell x.cell (arrived (.move x.cell px py) s) = (arrived (.move x.cell px py) s).setFiche
      { f with map := f.map.set x.cell { e with state := .exposing } } := by
    have exposing : isExposingCell (arrived (.move x.cell px py) s) x.cell = true := by
      simp [isExposingCell, arrived, hctx, hcell]
    have record : (arrived (.move x.cell px py) s).job.fiche = some f := hf
    simp only [startCell, record, exposing, if_true, ← hold, moveCell_set _ hmap]
  have told : tellDone (.move x.cell px py) (arrived (.move x.cell px py) s) = dueLineStart u := by
    have starts : tellDone (.move x.cell px py) (arrived (.move x.cell px py) s)
        = frameStart (arrived (.move x.cell px py) s) := by
      simp [tellDone, arrived, he, hx]
    have exposure : (arrived (.move x.cell px py) s).engine.exposure = some x := hx
    rw [starts]
    simp only [frameStart, exposure, cell]
    rfl
  have goes : Clauses.framesGoOn u :=
    ⟨hg.1, hg.2.1, hg.2.2.imp id fun ⟨hj, g, hg', hm, hn⟩ => ⟨hj, _, rfl, by
      obtain rfl : f = g := by simpa [hf] using hg'
      exact ⟨hm, hn⟩⟩⟩
  have starts : exec (.done n) s = .next (linkFinish s (dueLineStart u)) := by
    rw [exec_done hi, motionDone_eq, told, takePending_none (by simpa [u] using hp),
      jobTests_dueLineStart (x := x0) goes rfl rfl drives rfl]
  refine ⟨fun l ls hstore hl => ?_, fun hn => ⟨fun hh => ?_, fun hh => ?_⟩⟩
  · rw [starts, dueLineStart_image (s := u) rfl rfl drives rfl hstore hl]
    rfl
  · rw [starts, dueLineStart_underrun (s := u) rfl rfl drives rfl hn, underrun_holds (by exact hh)]
    rfl
  · rw [starts, dueLineStart_underrun (s := u) rfl rfl drives rfl hn, underrun_voids (by exact hh)]

/-- Settles O44: the frame start's line start, and R71's conditions. -/
theorem moveDoneStartsTheFrameAtItsCell : Obligations.MoveDoneStartsTheFrameAtItsCell :=
  ⟨moveDoneStartsTheFrame, linesNeedHeadCardAndJob⟩

end Sys2Proof.Machine
end

section
/-!
PROOFS. O45 and O46: the line ends. What follows a hand-over where frames go on, at the last frame of a CLOSING job, and
under the stop of an ending job and of a RESET FULL.
-/

open Sys2Proof

namespace Sys2Proof.Machine

variable {s : State} {f : Fiche} {x : Exposure} {e : Cell} {r : FrameResult}

/-! ### A hand-over where frames go on -/

/-- A result changes of the record its map, its dose and its void count alone (R9). -/
theorem recordResult_record (cell : Nat) (old : CellState) (r : FrameResult) (s : State) (hf : s.job.fiche = some f) :
    ∃ g, (recordResult cell old r s).job.fiche = some g ∧ g.openingMet = f.openingMet ∧ g.outcome = f.outcome := by
  simp only [recordResult, hf]
  split
  · exact ⟨_, rfl, rfl, rfl⟩
  · exact ⟨f, hf, rfl, rfl⟩

/-- The hand-over up to the wait in FRAME_END (R80, R81). -/
def frameHeld (old : CellState) (x : Exposure) (r : FrameResult) (s : State) : State :=
  let u := composeSlot .engine (.frame (frameReport (recordResult x.cell old r s) x r)) (recordResult x.cell old r s);
  u.setEngine { u.engine with state := .frameEnd, exposure := some x, holdTimer := none, driven := none }

theorem handOver_eq (old : CellState) (x : Exposure) (r : FrameResult) (s : State) : handOver old x r s =
    if slotFree (frameHeld old x r s) .engine = true then release (frameHeld old x r s) else frameHeld old x r s := rfl

theorem frameHeld_frame (old : CellState) (x : Exposure) (r : FrameResult) (s : State) :
    (frameHeld old x r s).engine.state = .frameEnd ∧ (frameHeld old x r s).intake = s.intake ∧
      (frameHeld old x r s).job = (recordResult x.cell old r s).job := by
  simp [frameHeld]

/-- A released engine drives no line: it is IDLE, or has admitted the promoted context (R82, R83). -/
theorem release_engine (s : State) : (release s).engine.state ≠ .exposing ∧ (release s).engine.state ≠ .flooding := by
  unfold release admitContext
  have idle : (releaseOnly s).engine.state = .idle := by simp [releaseOnly, engineToIdle]
  simp only [idle, if_true]
  split
  · simp [idle]
  · split <;> simp [requestMove]

/-- A release takes one context at most (R82). -/
theorem release_contexts (s : State) : s.intake.contexts.length ≤ (release s).intake.contexts.length + 1 := by
  have dropped : s.intake.contexts.length ≤ (dropExposing s).intake.contexts.length + 1 := by
    unfold dropExposing
    split
    · split <;> simp_all
    · omega
  simpa [release, releaseOnly, engineToIdle] using dropped

theorem handOver_framesGoOn (hg : Clauses.framesGoOn s) (old : CellState) (x : Exposure) (r : FrameResult) :
    Clauses.framesGoOn (handOver old x r s) := by
  have job : (handOver old x r s).job = (recordResult x.cell old r s).job := by
    rw [handOver_eq]
    split <;> simp [frameHeld_frame]
  obtain ⟨hd, ho, hj⟩ := hg
  refine ⟨by simpa using hd, by simpa using ho, hj.imp (fun h => by simpa using h) ?_⟩
  rintro ⟨hj, f, hf, hm, hn⟩
  obtain ⟨g, hgf, hgm, hgo⟩ := recordResult_record x.cell old r s hf
  exact ⟨by simpa using hj, g, by rw [job, hgf], by rw [hgm, hm], by rw [hgo, hn]⟩

/-- After a hand-over the engine is in FRAME_END, or has released: it drives no line (R82, R83). -/
theorem handOver_engine (old : CellState) (x : Exposure) (r : FrameResult) (s : State) :
    (handOver old x r s).engine.state ≠ .exposing ∧ (handOver old x r s).engine.state ≠ .flooding := by
  rw [handOver_eq]
  split
  · exact release_engine _
  · simp [frameHeld_frame]

/-- With a STAGED context behind the released one, one is left (R83). -/
theorem handOver_contexts (hc : 2 ≤ s.intake.contexts.length) (old : CellState) (x : Exposure) (r : FrameResult) :
    (handOver old x r s).intake.contexts ≠ [] := by
  obtain ⟨-, hintake, -⟩ := frameHeld_frame old x r s
  have taken := release_contexts (frameHeld old x r s)
  rw [hintake] at taken
  refine List.ne_nil_of_length_pos ?_
  rw [handOver_eq]
  split
  · omega
  · rw [hintake]
    omega

theorem jobTests_handOver (hg : Clauses.framesGoOn s) (hc : s.job.state = .opened ∨ 2 ≤ s.intake.contexts.length)
    (old : CellState) (x : Exposure) (r : FrameResult) : jobTests (handOver old x r s) = handOver old x r s := by
  obtain ⟨not_exposing, not_flooding⟩ := handOver_engine old x r s
  rw [jobTests_framesGoOn (handOver_framesGoOn hg old x r), dueLineStart_other_state not_exposing not_flooding]
  intro hj
  refine .inl (handOver_contexts (hc.resolve_left fun h => ?_) old x r)
  simp [h] at hj

/-- The end of the last frame of a CLOSING job (R18, R82, R83). -/
theorem jobTests_lastFrame (hg : Clauses.framesGoOn s) (hl : Clauses.lastOfTheFiche s x f e) :
    jobTests (handOver .exposing x r s) = Clauses.lastFrameEnded f e x r s := by
  obtain ⟨hj, hf, he, hold, hxc, ⟨c, hctx, hcell, hended⟩, hcard, hi, hp⟩ := hl
  obtain ⟨hd, ho, h | ⟨-, f', hf', hm, hn⟩⟩ := hg
  · simp [hj] at h
  obtain rfl : f = f' := by simpa [hf] using hf'
  have frame : (Clauses.frameEnded f e x r s).intake = s.intake ∧
      (Clauses.frameEnded f e x r s).transport = s.transport := by
    simp [Clauses.frameEnded]
  rw [frameResultsAreRecordedAndReported s .exposing x r f e hf he hold (by simp [isExposingCell, hctx, hcell])]
  simp only [Clauses.lastFrameEnded]
  split
  · rw [release_last (s := Clauses.frameEnded f e x r s) (x := x) rfl hxc (by rw [frame.1, hctx]),
      released_last_closed hended,
      jobTests_closes (f := Clauses.withResult f e x r) (by exact hj) (by rfl) hm hn (by exact hd) (by exact ho) (by rfl)
        (by rfl) (by rfl) (by simpa [frame.2] using ⟨hcard, hi, hp⟩)]
  · have goes : Clauses.framesGoOn (Clauses.frameEnded f e x r s) := ⟨hd, ho, .inr ⟨hj, _, rfl, hm, hn⟩⟩
    rw [jobTests_framesGoOn goes fun _ => .inr (by simp [Clauses.frameEnded]),
      dueLineStart_other_state (by simp [Clauses.frameEnded]) (by simp [Clauses.frameEnded])]

/-! ### A line's end under a stop -/

theorem frameEndStopped_record (hf : s.job.fiche = some f) : frameEndStopped x s = frameEndVoid x s := by
  simp only [frameEndStopped, hf]

/-- In ENDING the frame is recorded VOID and the card disposed of (R24, R86). -/
theorem jobTests_stopAwaited {k : IntakeFlags} (ha : Clauses.stopAwaited s x f e k) (hx : s.engine.exposure = some x) :
    jobTests (frameEndStopped x s) = Clauses.stoppedFrame f e k x s := by
  obtain ⟨hj, ho, hd, hf, he, hold, hk, hn, hcard, hi, hp⟩ := ha
  exact jobTests_stoppedFrame hj hf hd ho he hold hx hk hn (CardRests.onStage ⟨hcard, hi, hp⟩)

/-- Nothing is recorded or reported; the part is cleared and HOME sent (R86, R91, R93). -/
theorem jobTests_stoppedByFullReset (ha : Clauses.fullResetAwaited s x) (hx : s.engine.exposure = some x) :
    jobTests (frameEndStopped x s) = Clauses.fullyReset (Clauses.idled s.engine) s := by
  obtain ⟨hj, ho, hd, hf, hpins, hxc, hi, hp⟩ := ha
  have stopped : frameEndStopped x s = engineToIdle s := by
    have same : dropExposing s = s := by
      unfold dropExposing
      split <;> simp_all
    rw [frameEndStopped, hf, releaseOnly, same]
  have job : s.job = { state := .ending, fiche := none, fopenedDue := false, onStop := some .resetFull } := by
    rw [← hj, ← ho, ← hd, ← hf]
  have kept : s.transport.homeKept = s.transport := by
    simp only [Transport.homeKept, hp, reduceCtorEq, if_false]
    rw [← hp]
  rw [stopped, jobTests_fullReset (t := s.transport) (by exact job) (by rfl) (by rfl) (by exact hpins)
    (by exact kept.symm) (fun _ => hp)]
  rfl

/-! ### An image line's end (O45) -/

theorem frameFull_iff {l : Layout} : frameFull l x = true ↔ x.linesExposed + x.linesFlooded = l.hc := by simp [frameFull]

theorem exec_lineEnd {bases : List Nat} {mRef : Nat} (hx : s.engine.exposure = some x)
    (hd : s.engine.driven = some (.image bases mRef)) :
    exec .lineEnd s = .next (linkFinish s (jobTests (imageLineEnd x bases mRef s))) :=
  exec_conclude (by simp [endImageLine, hx, hd])

/-- Settles O45: the accounted line, then the next start, the frame end, or the stop. -/
theorem lineEndAccountsTheLine : Obligations.LineEndAccountsTheLine := by
  intro s x bases mRef he hx hd x1 u
  have ends : imageLineEnd x bases mRef s = if s.engine.stopping = true then frameEndStopped x1 u
      else if frameFull s.layout x1 = true then frameEndExposed x1 u else dueLineStart u := rfl
  rw [exec_lineEnd hx hd, ends]
  refine ⟨fun hst hg => ⟨fun hfull hm => ?_, fun hfull => ?_⟩, fun hst => ?_⟩
  · have goes : Clauses.framesGoOn u := hg
    have drives : mayDrive u x1 = true := hm
    rw [if_neg (by simp [hst]), if_neg (fun h => hfull (frameFull_iff.mp h)),
      jobTests_dueLineStart (x := x1) goes rfl rfl drives he]
    refine ⟨fun l ls hstore hl => ?_, fun hn => ⟨fun hh => ?_, fun hh => ?_⟩⟩
    · rw [dueLineStart_image (s := u) rfl rfl drives he hstore hl]
      rfl
    · rw [dueLineStart_underrun (s := u) rfl rfl drives he hn, underrun_holds (by exact hh)]
      rfl
    · rw [dueLineStart_underrun (s := u) rfl rfl drives he hn, underrun_voids (by exact hh)]
  · have goes : Clauses.framesGoOn u := hg
    intro ef r
    have exposed : frameEndExposed x1 u = handOver .exposing { x1 with flags := ef } r u := rfl
    rw [if_neg (by simp [hst]), if_pos (frameFull_iff.mpr hfull), exposed]
    refine ⟨fun hc => ?_, fun f e hl => ?_⟩
    · rw [jobTests_handOver goes hc]
    · rw [jobTests_lastFrame goes (by exact hl)]
  · rw [if_pos hst]
    refine ⟨fun f hf => ?_, fun f e k ha => ?_, fun ha => ?_⟩
    · rw [frameEndStopped_record (s := u) hf]
      rfl
    · rw [jobTests_stopAwaited (s := u) (x := x1) ha rfl]
    · rw [jobTests_stoppedByFullReset (s := u) (x := x1) ha rfl]
      rfl

/-! ### A flood line's end (O46) -/

theorem exec_floodLineEnd (hx : s.engine.exposure = some x) (hd : s.engine.driven = some .flood) :
    exec .floodLineEnd s = .next (linkFinish s (jobTests (floodLineEnd x s))) :=
  exec_conclude (by simp [endFloodLine, hx, hd])

theorem latchMin_eq (o : Option Nat) (m : Nat) : latchMin o m = some (min (o.getD m) m) := by
  cases o <;> simp [latchMin]

theorem latchMax_eq (o : Option Nat) (m : Nat) : latchMax o m = some (max (o.getD m) m) := by
  cases o <;> simp [latchMax]

/-- A flood line start due where a line may be driven (R71, R78). -/
theorem dueLineStart_flood (hx : s.engine.exposure = some x) (hdr : s.engine.driven = none) (hm : mayDrive s x = true)
    (he : s.engine.state = .flooding) : dueLineStart s = s.setEngine { s.engine with
      exposure := some { x with
        mMin := some (min (x.mMin.getD s.head.mAvg) s.head.mAvg)
        mMax := some (max (x.mMax.getD s.head.mAvg) s.head.mAvg) }
      m := s.head.mAvg
      widths := List.replicate s.layout.wc s.profile.voidPulse
      driven := some .flood } := by
  simp [dueLineStart, hx, hdr, hm, he, startFlood, latchMin_eq, latchMax_eq]

/-- Settles O46: the accounted flood line, then the next start, the frame end, or the stop. -/
theorem floodLineEndAccountsTheLine : Obligations.FloodLineEndAccountsTheLine := by
  intro s x he hx hd x1 u r
  have ends : floodLineEnd x s = if s.engine.stopping = true then frameEndStopped x1 u
      else if frameFull s.layout x1 = true then frameEndVoid x1 u else dueLineStart u := rfl
  have voided : frameEndVoid x1 u = handOver .exposing x1 r u := rfl
  rw [exec_floodLineEnd hx hd, ends]
  refine ⟨fun hst hg => ⟨fun hfull hm => ?_, fun hfull => ?_⟩, fun hst => ?_⟩
  · have goes : Clauses.framesGoOn u := hg
    have drives : mayDrive u x1 = true := hm
    have started := dueLineStart_flood (s := u) (x := x1) rfl rfl drives he
    have goes_on : Clauses.framesGoOn (dueLineStart u) := by simpa [Clauses.framesGoOn] using goes
    rw [if_neg (by simp [hst]), if_neg (fun h => hfull (frameFull_iff.mp h)),
      jobTests_framesGoOn goes_on (fun _ => .inr (by rw [started]; simp [u, he])),
      dueLineStart_driven (by simp [started]), started]
    rfl
  · have goes : Clauses.framesGoOn u := hg
    rw [if_neg (by simp [hst]), if_pos (frameFull_iff.mpr hfull), voided]
    refine ⟨fun hc => ?_, fun f e hl => ?_⟩
    · rw [jobTests_handOver goes hc]
    · rw [jobTests_lastFrame goes (by exact hl)]
  · rw [if_pos hst]
    refine ⟨fun f hf => ?_, fun f e k ha => ?_, fun ha => ?_⟩
    · rw [frameEndStopped_record (s := u) hf]
      rfl
    · rw [jobTests_stopAwaited (s := u) (x := x1) ha rfl]
    · rw [jobTests_stoppedByFullReset (s := u) (x := x1) ha rfl]
      rfl

end Sys2Proof.Machine
end

section
/-!
PROOFS. O7: every command keeps page intake's bounds, by the records and events that reach page intake.
-/

namespace Sys2Proof.Machine

variable {s t : State}

/-! ### Changes of page intake's state -/

/-- Page intake in TAKING has its pages open (R44). -/
theorem IntakeOk.toTaking (h : IntakeOk s) : IntakeOk (s.setIntake { s.intake with state := .taking }) :=
  ⟨h.contexts_le, h.store_le, h.pages_ok, h.orphan_ok, fun _ _ _ _ => .inl rfl,
    fun ho => ⟨(h.orphan_alone ho).1, .inl rfl⟩⟩

/-- Where no page is open page intake may pass to any state (R38, R57, R62). -/
theorem IntakeOk.toState {st : IntakeState} (h : IntakeOk s) (h1 : s.intake.state ≠ .taking)
    (h2 : s.intake.state ≠ .fillTop) : IntakeOk (s.setIntake { s.intake with state := st }) :=
  ⟨h.contexts_le, h.store_le, h.pages_ok, h.orphan_ok, fun c hc he hv => ((h.page_open c hc he hv).elim h1 h2).elim,
    fun ho => ((h.orphan_alone ho).2.elim h1 h2).elim⟩

/-- Outside TAKING and FILL_TOP the current page is one whose context has ended or was voided (R56, R57, R61). -/
theorem IntakeOk.page_closed {c : Context} (h : IntakeOk s) (hc : s.intake.page = some c)
    (h1 : s.intake.state ≠ .taking) (h2 : s.intake.state ≠ .fillTop) : ¬ (c.ended = false ∧ c.voided = false) := by
  rintro ⟨he, hv⟩
  unfold Intake.page at hc
  split at hc
  · exact (h.orphan_alone (by simp [*])).2.elim h1 h2
  · exact (h.page_open c hc he hv).elim h1 h2

/-! ### Page records -/

theorem checkPhead_intakeOk (h : IntakeOk s) : IntakeOk (checkPhead s) := (endOpenPage_intakeOk h).congr rfl rfl rfl le_rfl

theorem examinePhead_intakeOk (h : IntakeOk s) (he : examinePhead s = some t) : IntakeOk t := by
  unfold examinePhead at he
  (repeat' split at he) <;> cases he
  · exact refuse_intakeOk h
  · exact refuse_intakeOk h
  · exact checkPhead_intakeOk h

theorem assignCell_intake (cell : Nat) (key : Option (List Byte)) (s : State) :
    (assignCell cell key s).intake = s.intake := by simp

theorem admitContext_intakeOk (h : IntakeOk s) : IntakeOk (admitContext s) := h.same (by simp)

/-- A new context stands behind the others, its page open, with nothing consumed (R35, R36, R42). -/
theorem takePage_intakeOk {cell : Nat} {f : PheadFields} (h : IntakeOk s) (hi : s.intake.state = .pageIdle)
    (hn : s.intake.contexts.length < Config.contextLimit) : IntakeOk (takePage cell f s) := by
  have added : ∀ c st, PageOk c → st = .taking ∨ st = .fillTop → IntakeOk ((assignCell cell f.key s).setIntake
      { s.intake with contexts := s.intake.contexts ++ [c], state := st }) := by
    intro c st hp hst
    constructor <;> simp only [State.setIntake_intake]
    · simpa using hn
    · exact h.store_le
    · intro x hx
      rcases List.mem_append.mp hx with hx | hx
      · exact h.pages_ok x hx
      · exact List.mem_singleton.mp hx ▸ hp
    · exact h.orphan_ok
    · exact fun _ _ _ _ => hst
    · intro ho
      have := (h.orphan_alone ho).2
      simp [hi] at this
  unfold takePage
  dsimp only
  rw [assignCell_intake]
  exact removeHead_intakeOk (admitContext_intakeOk (added _ _ ⟨Nat.zero_le _, by simp [newContext]⟩ (by split <;> simp)))

theorem takePhead_intakeOk (h : IntakeOk s) (he : takePhead s = some t) : IntakeOk t := by
  unfold takePhead at he
  split at he
  · cases he
  · split at he
    · rename_i hc
      simp only [Bool.and_eq_true, beq_iff_eq, decide_eq_true_eq] at hc
      obtain ⟨⟨-, hi⟩, hn⟩ := hc
      (repeat' split at he) <;> cases he
      · exact refuse_intakeOk h
      · exact refuse_intakeOk h
      · exact refuse_intakeOk h
      · exact takePage_intakeOk h hi hn
    · cases he

theorem beginBand_intakeOk {r : Record} (h : IntakeOk s) : IntakeOk (beginBand r s) := by
  unfold beginBand
  (repeat' split)
  · exact refuse_intakeOk h
  · exact refuse_intakeOk h
  · exact h.congr rfl rfl rfl le_rfl

theorem examinePband_intakeOk (h : IntakeOk s) (he : examinePband s = some t) : IntakeOk t := by
  unfold examinePband at he
  (repeat' split at he) <;> cases he
  · exact refuse_intakeOk h
  · exact beginBand_intakeOk h
  · exact removeHead_intakeOk h
  · exact refuse_intakeOk h

theorem examinePend_intakeOk (h : IntakeOk s) (he : examinePend s = some t) : IntakeOk t := by
  unfold examinePend at he
  (repeat' split at he) <;> cases he
  · exact refuse_intakeOk h
  · exact removeHead_intakeOk (endPage_intakeOk h)
  · rename_i hd
    exact removeHead_intakeOk (h.toState (by simp [hd]) (by simp [hd]))
  · exact refuse_intakeOk h

/-! ### Lines -/

/-- A line's way through decimation leaves the page in order: a half-line is held with d = 2 alone (R36, R50). -/
theorem decimateStep_pageOk {c : Context} {j : Nat} {g : List Nat} (h : PageOk c) : PageOk (decimateStep c j g).1 := by
  obtain ⟨he, hp⟩ := h
  unfold decimateStep
  (repeat' split)
  · exact ⟨he, hp⟩
  · exact ⟨he, fun _ => ‹_›⟩
  · exact ⟨he, by simp⟩
  · exact ⟨he, hp⟩
  · exact ⟨he, hp⟩

@[simp] theorem decimateStep_h (c : Context) (j : Nat) (g : List Nat) : (decimateStep c j g).1.h = c.h := by
  unfold decimateStep
  (repeat' split) <;> rfl

/-- A line is consumed only below H (R47, R48). -/
theorem bandStepGrays_below {c : Context} {b : Band} {fill : Nat} {p : List Byte} {g : List Nat}
    (h : bandStepGrays (bandStep c b) fill c b p = some g) : c.e < c.h := by
  unfold bandStep at h
  (repeat' split at h) <;> simp_all [bandStepGrays]
  omega

/-- The page after a step of BAND_LINE is in order: e grows by a consumed line, up to H (R48). -/
theorem bandStepPage_pageOk {c : Context} {b : Band} {l : Layout} {fill : Nat} {p : List Byte} (h : PageOk c) :
    PageOk (bandStepPage l fill c (bandStepGrays (bandStep c b) fill c b p)).1 := by
  cases hg : bandStepGrays (bandStep c b) fill c b p with
  | none => exact h
  | some g => exact ⟨by simpa [bandStepPage] using bandStepGrays_below hg, (decimateStep_pageOk h).pending_d⟩

theorem stepFlags_pageOk {i : Intake} {st : BandStep} {c : Context} (h : PageOk c) : PageOk (stepFlags i st c) := by
  unfold stepFlags
  split
  · exact h
  · exact h.addFlags

theorem takeBandLine_intakeOk (h : IntakeOk s) (he : takeBandLine s = some t) : IntakeOk t := by
  unfold takeBandLine at he
  split at he
  · rename_i r b c hr hb hc
    split at he
    · rename_i hst
      simp only [Bool.and_eq_true, beq_iff_eq] at hst
      have ok : PageOk (stepFlags s.intake (bandStep c b) (bandStepPage s.layout s.profile.fillGray c
          (bandStepGrays (bandStep c b) s.profile.fillGray c b r.payload)).1) :=
        stepFlags_pageOk (bandStepPage_pageOk (h.page_ok hc))
      unfold consumeLine at he
      dsimp only at he
      (repeat' split at he) <;> cases he
      · exact advanceBand_intakeOk ((setPage_intakeOk (st := s.intake.state) (b := s.intake.band)
          (ph := s.intake.pheadChecked) h ok h.store_le (fun _ => .inl hst.2) (fun _ _ => .inl hst.2)).congr
          (by simp) rfl rfl (by simp))
      · exact advanceBand_intakeOk (appendLine_intakeOk h ok ‹_› fun _ _ => .inl hst.2)
    · cases he
  · cases he

theorem appendTopMargin_intakeOk (h : IntakeOk s) : IntakeOk (appendTopMargin s) := by
  unfold appendTopMargin
  split
  · exact h
  · rename_i c hc
    split
    · rename_i hst
      have h1 : IntakeOk (appendFill c s) := appendLine_intakeOk h (h.page_ok hc) hst.2 fun _ _ => .inr hst.1
      dsimp only
      split
      · exact h1.toTaking
      · exact h1
    · exact h

theorem appendBottomFill_intakeOk (h : IntakeOk s) : IntakeOk (appendBottomFill s) := by
  unfold appendBottomFill
  split
  · exact h
  · rename_i c hc
    split
    · rename_i hst
      have closed := h.page_closed hc (by simp [hst.1]) (by simp [hst.1])
      have h1 : IntakeOk (appendFill c s) :=
        appendLine_intakeOk h (h.page_ok hc) hst.2 fun he hv => (closed ⟨he, hv⟩).elim
      dsimp only
      split
      · exact h1.toState (by simp [appendFill, hst.1]) (by simp [appendFill, hst.1])
      · exact h1
    · exact h

/-! ### The other records and events -/

theorem offerFopen_intakeOk (h : IntakeOk s) (he : offerFopen s = some t) : IntakeOk t := by
  obtain ⟨r, code, rfl⟩ | ⟨r, f, rfl, -, -⟩ := offerFopen_cases he
  · exact refuse_intakeOk h
  · exact removeHead_intakeOk (h.same (by simp))

theorem offerFclose_intakeOk (h : IntakeOk s) (he : offerFclose s = some t) : IntakeOk t := by
  unfold offerFclose at he
  (repeat' split at he) <;> cases he
  · exact refuse_intakeOk h
  · have closing : ∀ u : State, IntakeOk u → IntakeOk (jobTests (removeHead (setJobState .closing (endOpenPage u)))) :=
      fun u hu => jobTests_intakeOk (removeHead_intakeOk ((endOpenPage_intakeOk hu).same (by simp)))
    unfold takeFclose
    split
    · exact closing s h
    · exact closing _ (h.same rfl)

theorem tableRecords_intakeOk (h : IntakeOk s) (he : offerTwrite s = some t ∨ offerTread s = some t ∨
    offerQstat s = some t) : IntakeOk t := by
  unfold offerTwrite offerTread offerQstat clearOption at he
  rcases he with he | he | he <;> (repeat' split at he) <;> cases he <;>
    exact h.congr (by simp) (by simp) (by simp) (by simp)

theorem acceptConversion_intakeOk {raw : Nat} (h : IntakeOk s) (he : acceptConversion raw s = some t) : IntakeOk t := by
  have h1 : IntakeOk (takeConversion raw s) := h.same (by simp)
  unfold acceptConversion at he
  dsimp only at he
  (repeat' split at he) <;> cases he
  · exact jobTests_intakeOk h1
  · exact h1

theorem expireWarm_intakeOk (h : IntakeOk s) (he : expireWarm s = some t) : IntakeOk t := by
  unfold expireWarm at he
  split at he <;> cases he
  exact jobTests_intakeOk (takeHeadNotReady_intakeOk (h.same (by simp)))

theorem endImageLine_intakeOk (h : IntakeOk s) (he : endImageLine s = some t) : IntakeOk t := by
  unfold endImageLine at he
  split at he <;> cases he
  exact jobTests_intakeOk (imageLineEnd_intakeOk h)

theorem endFloodLine_intakeOk (h : IntakeOk s) (he : endFloodLine s = some t) : IntakeOk t := by
  unfold endFloodLine at he
  split at he <;> cases he
  exact jobTests_intakeOk (floodLineEnd_intakeOk h)

theorem expireHold_intakeOk (h : IntakeOk s) (he : expireHold s = some t) : IntakeOk t := by
  unfold expireHold at he
  split at he <;> cases he
  exact voidFrame_intakeOk h

theorem placeWaiting_intakeOk (h : IntakeOk s) (he : placeWaiting s = some t) : IntakeOk t := by
  unfold placeWaiting at he
  (repeat' split at he) <;> cases he
  rename_i p r rest _ _
  have h1 : IntakeOk (s.setLink { s.link with slots := rest, reports := s.link.reports ++ [r] }) := h.same rfl
  unfold producerProceeds
  split
  · split
    · exact jobTests_intakeOk (release_intakeOk h1)
    · exact jobTests_intakeOk h1
  · exact jobTests_intakeOk h1
  all_goals exact h1

theorem takeDone_intakeOk {n : CommandNumber} (h : IntakeOk s) (he : takeDone n s = some t) : IntakeOk t := by
  unfold takeDone at he
  (repeat' split at he) <;> cases he
  exact jobTests_intakeOk (motionDone_intakeOk h)

theorem takeFault_intakeOk {n : CommandNumber} {code : ReplyCode} (h : IntakeOk s) (he : takeFault n code s = some t) :
    IntakeOk t := by
  unfold takeFault at he
  (repeat' split at he) <;> cases he
  · exact jobTests_intakeOk (transportFault_intakeOk h)
  · exact jobTests_intakeOk (transportFault_intakeOk h)
  · exact jobTests_intakeOk (loadNoStock_intakeOk h)

theorem takeTimeout_intakeOk (h : IntakeOk s) (he : takeTimeout s = some t) : IntakeOk t := by
  unfold takeTimeout at he
  split at he <;> cases he
  exact jobTests_intakeOk (transportFault_intakeOk h)

theorem takeLine_intakeOk {l : List Byte} (h : IntakeOk s) (he : takeLine l s = some t) : IntakeOk t := by
  unfold takeLine at he
  split at he
  · cases he
  · exact takeDone_intakeOk h he
  · exact takeFault_intakeOk h he

/-! ### Link loss, ABORT and RESET -/

theorem takeAbort_intakeOk {tag : Tag} {e : LinkErrReport} (h : IntakeOk s) : IntakeOk (takeAbort tag e s) := by
  unfold takeAbort
  dsimp only
  (repeat' split)
  · exact jobTests_intakeOk endingActions_intakeOk
  · exact h.same (by simp)
  · exact h.same (by simp)

theorem engineSlotCleared_intakeOk (h : IntakeOk s) : IntakeOk (engineSlotCleared s) := by
  unfold engineSlotCleared
  split
  · exact release_intakeOk h
  · exact h

/-- A RESET SOFT clears page intake before the job controller's own part (R33, R63). -/
theorem takeSoftReset_intakeOk {tag : Tag} : IntakeOk (takeSoftReset tag s) := by
  have job : ∀ (u : State) again, IntakeOk u → IntakeOk (softResetJob again u) := by
    intro u again hu
    unfold softResetJob
    (repeat' split) <;> first
      | exact hu
      | exact endingActions_intakeOk
      | exact hu.same (by simp)
  exact jobTests_intakeOk (job _ _ clearIntake_intakeOk)

/-- A RESET FULL clears page intake before the engine is told to stop (R32, R63). -/
theorem takeFullReset_intakeOk {tag : Tag} : IntakeOk (takeFullReset tag s) :=
  jobTests_intakeOk (stopEngine_intakeOk clearIntake_intakeOk)

theorem takeFrame_intakeOk {bytes : List Byte} (h : IntakeOk s) : IntakeOk (takeFrame bytes s) := by
  unfold takeFrame
  split
  · exact h.same (by simp)
  · unfold takeRecord
    split
    · exact takeAbort_intakeOk h
    · split
      · exact takeFullReset_intakeOk
      · exact takeSoftReset_intakeOk
    all_goals (repeat' split) <;> exact h.same (by simp)

theorem linkLost_intakeOk {cause : LossCause} (h : IntakeOk s) :
    IntakeOk (jobTests (takeLinkLoss (jobProceeds (engineSlotCleared (linkDown cause s))))) := by
  have down : IntakeOk (linkDown cause s) := h.congr rfl rfl rfl le_rfl
  have h1 := jobProceeds_intakeOk (engineSlotCleared_intakeOk down)
  unfold takeLinkLoss
  (repeat' split) <;> first
    | exact jobTests_intakeOk h1
    | exact jobTests_intakeOk endingActions_intakeOk

/-! ### Every command -/

/-- The end of an event keeps what its own action kept. -/
theorem conclude_intakeOk {after : Option State} (h : IntakeOk s) (ha : ∀ u, after = some u → IntakeOk u)
    (he : conclude s after = .next t) : IntakeOk t := by
  cases after with
  | none => cases he; exact h
  | some u => cases he; exact (ha u rfl).same (by simp)

/-- An event of the link, with the link in the state that allows it or not. -/
theorem linkEvent_intakeOk {p : Prop} [Decidable p] {u : State} (h : IntakeOk s) (hu : IntakeOk u)
    (he : (if p then .next (linkFinish s u) else .next s : Host.Outcome State Fault Refusal) = .next t) : IntakeOk t := by
  split at he <;> cases he
  · exact hu.same (by simp)
  · exact h

theorem exec_intakeOk {c : Instr} (h : IntakeOk s) (he : exec c s = .next t) : IntakeOk t := by
  cases c with
  | powerOn => cases he; exact intakeOk_reset.same rfl
  | signalDetectRising =>
    simp only [exec, execSignalDetectRising] at he
    split at he <;> cases he <;> exact h.same rfl
  | alignment =>
    simp only [exec, execAlignment] at he
    split at he <;> cases he <;> exact h.same (by simp)
  | lossOfSignal cause =>
    simp only [exec, execLossOfSignal] at he
    split at he <;> cases he
    · exact h
    · exact linkLost_intakeOk h
  | frameReceived bytes => exact linkEvent_intakeOk h (takeFrame_intakeOk h) he
  | frameEndedByStartDelimiter bytes =>
    exact linkEvent_intakeOk h (u := dropFrame (linkErrOf .linkCrc bytes) true s) (h.same (by simp)) he
  | transmissionEnds =>
    simp only [exec, execTransmissionEnds] at he
    split at he <;> cases he <;> exact h.same (by simp)
  | reportPlaced => exact conclude_intakeOk h (fun _ => placeWaiting_intakeOk h) he
  | fopen => exact conclude_intakeOk h (fun _ => offerFopen_intakeOk h) he
  | fclose => exact conclude_intakeOk h (fun _ => offerFclose_intakeOk h) he
  | phead => exact conclude_intakeOk h (fun _ => examinePhead_intakeOk h) he
  | pheadTake => exact conclude_intakeOk h (fun _ => takePhead_intakeOk h) he
  | pband => exact conclude_intakeOk h (fun _ => examinePband_intakeOk h) he
  | bandLine => exact conclude_intakeOk h (fun _ => takeBandLine_intakeOk h) he
  | pend => exact conclude_intakeOk h (fun _ => examinePend_intakeOk h) he
  | topMarginLine => cases he; exact appendTopMargin_intakeOk h
  | fillLine => cases he; exact appendBottomFill_intakeOk h
  | twrite => exact conclude_intakeOk h (fun _ hu => tableRecords_intakeOk h (.inl hu)) he
  | tread => exact conclude_intakeOk h (fun _ hu => tableRecords_intakeOk h (.inr (.inl hu))) he
  | qstat => exact conclude_intakeOk h (fun _ hu => tableRecords_intakeOk h (.inr (.inr hu))) he
  | abort tag => exact linkEvent_intakeOk h (takeAbort_intakeOk h) he
  | resetFull tag => exact linkEvent_intakeOk h takeFullReset_intakeOk he
  | resetSoft tag => exact linkEvent_intakeOk h takeSoftReset_intakeOk he
  | done n => exact conclude_intakeOk h (fun _ => takeDone_intakeOk h) he
  | fault n code => exact conclude_intakeOk h (fun _ => takeFault_intakeOk h) he
  | motionTimeout => exact conclude_intakeOk h (fun _ => takeTimeout_intakeOk h) he
  | conversion raw => exact conclude_intakeOk h (fun _ => acceptConversion_intakeOk h) he
  | warmTimerExpiry => exact conclude_intakeOk h (fun _ => expireWarm_intakeOk h) he
  | parkTimerExpiry =>
    simp only [exec, execParkTimerExpiry] at he
    split at he <;> cases he <;> exact h.same (by simp)
  | lineEnd => exact conclude_intakeOk h (fun _ => endImageLine_intakeOk h) he
  | floodLineEnd => exact conclude_intakeOk h (fun _ => endFloodLine_intakeOk h) he
  | holdTimerExpiry => exact conclude_intakeOk h (fun _ => expireHold_intakeOk h) he
  | lastCharacterSent =>
    simp only [exec, execLastCharacterSent] at he
    split at he <;> cases he <;> exact h.same rfl
  | receivedLineIgnored line => exact conclude_intakeOk h (fun _ => takeLine_intakeOk h) he

/-- Settles O7: a step is a command on the state with the queue's rest, and every command keeps the bounds. -/
theorem intakeBoundsAreKept : Obligations.IntakeBoundsAreKept := by
  intro s t h hs
  obtain rfl | ⟨c, rest, he⟩ := step_cases hs
  · exact h
  · exact exec_intakeOk (h.same (t := { s with pending := rest }) rfl) he

end Sys2Proof.Machine
end

section
/-!
PROOFS. O35, O36, O38: the examination of a PHEAD, a PEND and a PBAND in OPENING or OPEN.
-/

open Sys2Proof

namespace Sys2Proof.Machine

variable {s : State} {r : Record}

/-- In OPENING and OPEN page records are handed to page intake (R16). -/
theorem pageRefusal_none (h : s.job.state = .opening ∨ s.job.state = .opened) : pageRefusal s.job.state = none := by
  rcases h with h | h <;> simp [h, pageRefusal]

theorem examines_of (h : s.intake.state = .pageIdle ∨ s.intake.state = .taking ∨ s.intake.state = .discarding) :
    s.intake.state.examines = true := by
  rcases h with h | h | h <;> simp [h, IntakeState.examines]

/-! ### PHEAD (O35) -/

/-- An unchecked PHEAD that passes becomes checked, the page that is open ended as by an FCLOSE (R41, R58). -/
theorem exec_phead_passes {f : PheadFields} {i : Intake} (hr : headRecord .phead s = some r)
    (hs : slotFree s .link = true) (hp : s.intake.pheadChecked = false)
    (hj : s.job.state = .opening ∨ s.job.state = .opened) (hf : readPhead r.payload = some f)
    (hx : s.intake.state = .pageIdle ∨ s.intake.state = .taking ∨ s.intake.state = .discarding)
    (hi : Clauses.pageEndedByFclose s.layout.hc s.intake i) :
    exec .phead s = .next (linkFinish s { s with intake := { i with pheadChecked := true } }) := by
  have checked : examinePhead s = some (checkPhead s) := by
    simp [examinePhead, pageOffered, hr, hs, hp, examines_of hx, pageRefusal_none hj, hf]
  have ended : checkPhead s = { s with intake := { i with pheadChecked := true } } := by
    rw [checkPhead, endOpenPage_eq hi]
    rfl
  exact exec_conclude (checked.trans (congrArg some ended))

/-- Settles O35: what the implicit end leaves is the end of an FCLOSE's page, by the state of page intake. -/
theorem pheadIsCheckedOnce : Obligations.PheadIsCheckedOnce := by
  intro s r hr hs
  refine ⟨fun hp => conclude_not_due (by simp [examinePhead, hr, hp]), fun hp hj => ⟨fun hx hbad => exec_conclude ?_,
    fun f hf => ⟨fun hst => ?_, fun hst => ?_, fun cs c hst ho hc hv => ?_, fun c hst ho => ?_⟩⟩⟩
  · simp [examinePhead, pageOffered, hr, hs, hp, examines_of hx, pageRefusal_none hj, hbad]
  · exact exec_phead_passes hr hs hp hj hf (.inl hst) (.inl ⟨.inl hst, rfl⟩)
  · exact exec_phead_passes hr hs hp hj hf (.inr (.inr hst)) (.inr (.inl ⟨hst, rfl⟩))
  · exact exec_phead_passes hr hs hp hj hf (.inr (.inl hst))
      (.inr (.inr (.inr ⟨cs, c, .inl hst, ho, hc, hv, rfl⟩)))
  · exact exec_phead_passes hr hs hp hj hf (.inr (.inl hst)) (.inr (.inr (.inl ⟨c, .inl hst, ho, rfl⟩)))

/-! ### PEND (O36) -/

/-- The end of a page that has its context (R57); `noEnd` where a PHEAD or an FCLOSE ends it (R41, R58). -/
theorem endPage_context {cs : List Context} {c : Context} (noEnd : Bool) (ho : s.intake.orphan = none)
    (hc : s.intake.contexts = cs ++ [c]) (hv : c.voided = false) :
    endPage noEnd s = { s with intake := { s.intake with
      contexts := cs ++ [{ c with
        flags := { c.flags with
          short := c.flags.short || decide (c.e < c.d * c.hd), noEnd := c.flags.noEnd || noEnd }
        pendingLine := none, ended := true }]
      state := if c.placed < s.layout.hc then .fillBottom else .pageIdle } } := by
  have short : (!decide (c.d * c.hd ≤ c.e)) = decide (c.e < c.d * c.hd) :=
    decide_not.symm.trans (decide_eq_decide.mpr Nat.not_le)
  simp [endPage, ho, hc, Intake.setPage, Context.addFlags, hv, IntakeFlags.union, IntakeFlags.none,
    Context.allArrived, short, State.setIntake]

/-- The end of a page without a context: no fill, no flag (R56). -/
theorem endPage_orphan {c : Context} (noEnd : Bool) (ho : s.intake.orphan = some c) :
    endPage noEnd s = { s with intake := { s.intake with orphan := none, state := .pageIdle } } := by
  simp [endPage, ho, State.setIntake]

theorem exec_pend_taken (hr : headRecord .pend s = some r) (hs : slotFree s .link = true)
    (hj : s.job.state = .opening ∨ s.job.state = .opened) (hst : s.intake.state = .taking) :
    exec .pend s = .next (linkFinish s (removeHead (endPage false s))) :=
  exec_conclude (by simp [examinePend, pageOffered, hr, hs, pageRefusal_none hj, hst, IntakeState.examines])

/-- Settles O36, by the state of page intake and by whether the page has its context. -/
theorem pendEndsThePage : Obligations.PendEndsThePage := by
  intro s
  refine ⟨fun r hr hs hj => ⟨fun hst => exec_conclude ?_, fun hst => exec_conclude ?_, fun cs c hst ho hc hv => ?_,
    fun c hst ho => ?_⟩, fun cs c hst ho hc hv => ?_⟩
  · simp [examinePend, pageOffered, hr, hs, pageRefusal_none hj, hst, IntakeState.examines]
  · simp [examinePend, pageOffered, hr, hs, pageRefusal_none hj, hst, IntakeState.examines, State.setIntake]
  · rw [exec_pend_taken hr hs hj hst, endPage_context false ho hc hv]
    simp
  · rw [exec_pend_taken hr hs hj hst, endPage_orphan false ho]
  · exact endOpenPage_eq (.inr (.inr (.inr ⟨cs, c, .inr hst, ho, hc, hv, rfl⟩)))

/-! ### PBAND (O38) -/

/-- With its leading bytes present and a line count in range a PBAND is judged by the length of its data (R45). -/
theorem readBand_counted {w depth : Nat} {p : List Byte} (hlen : 3 ≤ p.length) (hlow : 1 ≤ byteAt p 2)
    (hhigh : byteAt p 2 ≤ 16) : readBand w depth p =
      if p.length - 3 ≠ byteAt p 2 * bytesPerLine w depth then .inl .bandLength
      else .inr { first := numberAt p 0 2, count := byteAt p 2, dealt := 0 } := by
  rw [readBand, if_neg (by omega), if_neg (by omega)]

theorem exec_pband_begins {c : Context} (hr : headRecord .pband s = some r) (hs : slotFree s .link = true)
    (hb : s.intake.band = none) (hj : s.job.state = .opening ∨ s.job.state = .opened) (hst : s.intake.state = .taking)
    (hc : s.intake.page = some c) :
    exec .pband s = .next (linkFinish s (match readBand c.w c.depth r.payload with
      | .inl code => refuse .link r code s
      | .inr b => { s with intake := { s.intake with band := some b } })) := by
  have begun : examinePband s = some (beginBand r s) := by
    simp [examinePband, pageOffered, hr, hs, hb, pageRefusal_none hj, hst, IntakeState.examines]
  refine exec_conclude (begun.trans (congrArg some ?_))
  simp only [beginBand, hc]
  rfl

/-- Settles O38: by the state of page intake; in TAKING the checks of R45 in their order. -/
theorem pbandIsExamined : Obligations.PbandIsExamined := by
  intro s r hr hs hb hj
  refine ⟨fun hst => exec_conclude ?_, fun hst => exec_conclude ?_, fun c hst hc =>
    ⟨fun hbad => ?_, fun hlen hlow hhigh => ⟨fun hne => ?_, fun heq => ?_⟩⟩⟩
  · simp [examinePband, pageOffered, hr, hs, hb, pageRefusal_none hj, hst, IntakeState.examines]
  · simp [examinePband, pageOffered, hr, hs, hb, pageRefusal_none hj, hst, IntakeState.examines]
  · have read : readBand c.w c.depth r.payload = .inl .badField := by
      unfold readBand
      split
      · rfl
      · rw [if_pos (hbad.resolve_left ‹_›)]
    rw [exec_pband_begins hr hs hb hj hst hc, read]
  · rw [exec_pband_begins hr hs hb hj hst hc, readBand_counted hlen hlow hhigh, if_pos (by exact hne)]
  · rw [exec_pband_begins hr hs hb hj hst hc, readBand_counted hlen hlow hhigh, if_neg (not_not_intro (by exact heq))]

end Sys2Proof.Machine
end

section
/-!
PROOFS. O39: BAND_LINE deals with the band's next line, for the page of the newest context and for a page without one.
-/

open Sys2Proof

namespace Sys2Proof.Machine

variable {s : State} {r : Record} {b : Band} {c : Context}

/-! ### The judgement of the next line (R47, R48) -/

theorem bandStep_repeated (h : b.first + b.dealt < c.e) : bandStep c b = .repeated := by simp [bandStep, h]

theorem bandStep_gapLine (h : c.e < b.first + b.dealt) (he : c.e < c.h) : bandStep c b = .gapLine := by
  rw [bandStep, if_neg (by omega), if_pos ⟨h, he⟩]

theorem bandStep_beyond (he : c.e = c.h) (h : c.h ≤ b.first + b.dealt) : bandStep c b = .beyond := by
  rw [bandStep, if_neg (by omega), if_neg (by omega), if_pos h]

theorem bandStep_expected (h : b.first + b.dealt = c.e) (he : c.e < c.h) : bandStep c b = .expected := by
  rw [bandStep, if_neg (by omega), if_neg (by omega), if_neg (by omega)]

/-! ### A source line's way through decimation (R50, R51) -/

theorem decimateStep_undecimated (h : c.d = 1) (j : Nat) (g : List Nat) : decimateStep c j g = (c, some (j, g)) := by
  simp [decimateStep, h]

theorem decimateStep_holds {j : Nat} (h : c.d = 2) (hj : j % 2 = 0) (hn : j + 1 ≠ c.h) (g : List Nat) :
    decimateStep c j g = ({ c with pendingLine := some g }, none) := by simp [decimateStep, h, hj, hn]

theorem decimateStep_odd_last {j : Nat} (h : c.d = 2) (hj : j % 2 = 0) (hn : j + 1 = c.h) (g : List Nat) :
    decimateStep c j g = (c, none) := by simp [decimateStep, h, hj, hn]

theorem decimateStep_completes {j : Nat} {top : List Nat} (h : c.d = 2) (hj : j % 2 = 1) (hp : c.pendingLine = some top)
    (g : List Nat) : decimateStep c j g = ({ c with pendingLine := none }, some (j / 2, decimateLines top g)) := by
  simp [decimateStep, h, hj, hp]

/-! ### Placement (R53 to R55) -/

theorem placedFrom_placed {l : Layout} {fill k : Nat} {line : List Nat} (hk : placedNumber c.vOff l.hc k = some c.placed)
    (hp : c.placed < l.hc) : placedFrom l fill c (some (k, line)) = some (composeLine l.wc fill c.hOff line) := by
  simp [placedFrom, hk, hp]

theorem placedFrom_skipped {l : Layout} {fill k : Nat} {line : List Nat}
    (h : placedNumber c.vOff l.hc k ≠ some c.placed ∨ l.hc ≤ c.placed) : placedFrom l fill c (some (k, line)) = none := by
  rw [placedFrom, if_neg]
  rintro ⟨hk, hp⟩
  exact h.elim (· hk) (Nat.not_le.mpr hp)

/-- Once the cell's lines have all been placed no source line gives another (R55). -/
theorem placedFrom_full {l : Layout} (h : l.hc ≤ c.placed) (fill : Nat) (out : Option (Nat × List Nat)) :
    placedFrom l fill c out = none := by
  cases out with
  | none => rfl
  | some o => exact placedFrom_skipped (.inr h)

/-! ### One BAND_LINE -/

/-- What a BAND_LINE rests on: its PBAND at the head, the band in hand, the current page, and no wait (R49, R196). -/
structure BandDue (s : State) (r : Record) (b : Band) (c : Context) : Prop where
  head : headRecord .pband s = some r
  band : s.intake.band = some b
  slot : slotFree s .link = true
  taking : s.intake.state = .taking
  page : s.intake.page = some c

/-- The band's next line as page intake reads it: its judgement, and its gray values where it is consumed. -/
structure NextLine (s : State) (r : Record) (b : Band) (c : Context) (st : BandStep) (grays : Option (List Nat)) :
    Prop where
  step : bandStep c b = st
  grays : bandStepGrays st s.profile.fillGray c b r.payload = grays

theorem exec_bandLine (h : BandDue s r b c) : exec .bandLine s = conclude s (consumeLine c b r.payload s) := by
  simp [exec, execBandLine, takeBandLine, h.head, h.band, h.page, h.slot, h.taking]

/-- A line that gives no placed line leaves the page as it then stands, and the band advanced. -/
theorem exec_bandLine_unplaced {st : BandStep} {grays : Option (List Nat)} {c' : Context} (h : BandDue s r b c)
    (hn : NextLine s r b c st grays) (hp : bandStepPage s.layout s.profile.fillGray c grays = (c', none)) :
    exec .bandLine s = .next (linkFinish s
      (advanceBand b st.advance (s.setIntake (s.intake.setPage (stepFlags s.intake st c'))))) := by
  obtain ⟨rfl, rfl⟩ := hn
  rw [exec_bandLine h]
  exact exec_conclude (by simp only [consumeLine, hp])

/-- A line that gives a placed line is appended while a slot of the store is free, and waits otherwise (R49, R59). -/
theorem exec_bandLine_placed {st : BandStep} {grays : Option (List Nat)} {c' : Context} {line : List Nat}
    (h : BandDue s r b c) (hn : NextLine s r b c st grays)
    (hp : bandStepPage s.layout s.profile.fillGray c grays = (c', some line)) :
    (s.intake.store.length < 8 → exec .bandLine s = .next (linkFinish s
      (advanceBand b st.advance (appendLine (stepFlags s.intake st c') line s)))) ∧
    (8 ≤ s.intake.store.length → exec .bandLine s = .next s) := by
  obtain ⟨rfl, rfl⟩ := hn
  rw [exec_bandLine h]
  refine ⟨fun hr => exec_conclude ?_, fun hr => conclude_not_due ?_⟩
  · have room : storeRoom s = true := decide_eq_true hr
    simp only [consumeLine, hp, room, if_true]
  · have full : storeRoom s = false := decide_eq_false (Nat.not_lt.mpr hr)
    simp only [consumeLine, hp, full, Bool.false_eq_true, if_false]

/-! ### A page that has its context -/

/-- The record's leaving with its last line, and the band advanced before that (R49). -/
def bandLeft (b : Band) (n : Nat) (u : State) : State :=
  if b.count ≤ b.dealt + n then removeHead u
  else { u with intake := { u.intake with band := some { b with dealt := b.dealt + n } } }

theorem advanceBand_eq (b : Band) (n : Nat) (u : State) : advanceBand b n u = bandLeft b n u := rfl

theorem setPage_context {i : Intake} {cs : List Context} (ho : i.orphan = none) (hc : i.contexts = cs ++ [c])
    (c' : Context) : i.setPage c' = { i with contexts := cs ++ [c'] } := by simp [Intake.setPage, ho, hc]

theorem page_context {i : Intake} {cs : List Context} (ho : i.orphan = none) (hc : i.contexts = cs ++ [c]) :
    i.page = some c := by simp [Intake.page, ho, hc]

/-- The intake flags after a step of BAND_LINE (R47, R48). -/
theorem stepFlags_context {i : Intake} {st : BandStep} {c' : Context} (ho : i.orphan = none) (hv : c'.voided = false) :
    stepFlags i st c' = { c' with flags := c'.flags.union st.flag } := by simp [stepFlags, ho, Context.addFlags, hv]

theorem union_dup (f : IntakeFlags) : f.union BandStep.repeated.flag = { f with dup := true } := by
  simp [IntakeFlags.union, BandStep.flag, IntakeFlags.none]

theorem union_long (f : IntakeFlags) : f.union BandStep.beyond.flag = { f with long := true } := by
  simp [IntakeFlags.union, BandStep.flag, IntakeFlags.none]

theorem union_gap (f : IntakeFlags) : f.union BandStep.gapLine.flag = { f with gap := true } := by
  simp [IntakeFlags.union, BandStep.flag, IntakeFlags.none]

theorem union_expected (f : IntakeFlags) : f.union BandStep.expected.flag = f := by
  simp [IntakeFlags.union, BandStep.flag, IntakeFlags.none]

/-- A discarded line leaves its flag alone (R47, R48). -/
theorem exec_bandLine_discards {st : BandStep} {cs : List Context} (h : BandDue s r b c)
    (hn : NextLine s r b c st none) (ho : s.intake.orphan = none) (hc : s.intake.contexts = cs ++ [c])
    (hv : c.voided = false) : exec .bandLine s = .next (linkFinish s (bandLeft b st.advance { s with intake :=
      { s.intake with contexts := cs ++ [{ c with flags := c.flags.union st.flag }] } })) := by
  rw [exec_bandLine_unplaced h hn rfl, advanceBand_eq, stepFlags_context ho hv, setPage_context ho hc]
  rfl

/-- A consumed line with no placed line: held as the upper half of a pair, an odd last line, skipped, or beyond the cell
(R50, R51, R53, R55). -/
theorem exec_bandLine_consumes {st : BandStep} {cs : List Context} {grays : List Nat} {c' : Context}
    {out : Option (Nat × List Nat)} (h : BandDue s r b c)
    (hn : NextLine s r b c st (some grays)) (ho : s.intake.orphan = none) (hc : s.intake.contexts = cs ++ [c])
    (hv : c'.voided = false) (hd : decimateStep c c.e grays = (c', out))
    (hp : placedFrom s.layout s.profile.fillGray c out = none) :
    exec .bandLine s = .next (linkFinish s (bandLeft b st.advance { s with intake :=
      { s.intake with contexts := cs ++ [{ c' with e := c.e + 1, flags := c'.flags.union st.flag }] } })) := by
  have page : bandStepPage s.layout s.profile.fillGray c (some grays) = ({ c' with e := c.e + 1 }, none) := by
    simp only [bandStepPage, hd, hp]
  rw [exec_bandLine_unplaced h hn page, advanceBand_eq, stepFlags_context ho (by exact hv), setPage_context ho hc]
  rfl

/-- A consumed line that gives a placed line (R53, R54). -/
theorem exec_bandLine_appends {st : BandStep} {grays line : List Nat} {c' : Context}
    {out : Option (Nat × List Nat)} (h : BandDue s r b c) (hn : NextLine s r b c st (some grays))
    (ho : s.intake.orphan = none) (hv : c'.voided = false) (hd : decimateStep c c.e grays = (c', out))
    (hp : placedFrom s.layout s.profile.fillGray c out = some line) :
    (s.intake.store.length < 8 → exec .bandLine s = .next (linkFinish s (bandLeft b st.advance
      (appendLine { c' with e := c.e + 1, flags := c'.flags.union st.flag } line s)))) ∧
    (8 ≤ s.intake.store.length → exec .bandLine s = .next s) := by
  have page : bandStepPage s.layout s.profile.fillGray c (some grays) = ({ c' with e := c.e + 1 }, some line) := by
    simp only [bandStepPage, hd, hp]
  have placed := exec_bandLine_placed h hn page
  rw [stepFlags_context ho (by exact hv)] at placed
  exact placed

/-- The consumption of one source line, by decimation and placement: what O39 asks of the expected line and of a gap
line alike. -/
theorem exec_bandLine_consumed {st : BandStep} {cs : List Context} {grays : List Nat} {flags : IntakeFlags}
    (h : BandDue s r b c) (hn : NextLine s r b c st (some grays)) (ho : s.intake.orphan = none)
    (hc : s.intake.contexts = cs ++ [c]) (hv : c.voided = false) (hf : c.flags.union st.flag = flags) :
    let paged (c' : Context) : State := { s with intake := { s.intake with contexts := cs ++ [c'] } };
    (c.d = 2 → c.e % 2 = 0 →
      (c.e + 1 ≠ c.h → exec .bandLine s = .next (linkFinish s (bandLeft b st.advance (paged { c with
        e := c.e + 1, flags := flags, pendingLine := some grays })))) ∧
      (c.e + 1 = c.h → exec .bandLine s = .next (linkFinish s (bandLeft b st.advance (paged { c with
        e := c.e + 1, flags := flags }))))) ∧
    ∀ k line c1,
      ((c.d = 1 ∧ k = c.e ∧ line = grays ∧ c1 = { c with e := c.e + 1, flags := flags }) ∨
        (∃ top, c.d = 2 ∧ c.e % 2 = 1 ∧ c.pendingLine = some top ∧ k = c.e / 2 ∧ line = decimateLines top grays ∧
          c1 = { c with e := c.e + 1, flags := flags, pendingLine := none })) →
      (placedNumber c.vOff s.layout.hc k = some c.placed → c.placed < s.layout.hc →
        (s.intake.store.length < 8 → exec .bandLine s = .next (linkFinish s (bandLeft b st.advance
          (appendLine c1 (composeLine s.layout.wc s.profile.fillGray c.hOff line) s)))) ∧
        (8 ≤ s.intake.store.length → exec .bandLine s = .next s)) ∧
      ((placedNumber c.vOff s.layout.hc k ≠ some c.placed ∨ s.layout.hc ≤ c.placed) →
        exec .bandLine s = .next (linkFinish s (bandLeft b st.advance (paged c1)))) := by
  subst hf
  refine ⟨fun h2 he => ⟨fun hl => ?_, fun hl => ?_⟩, fun k line c1 hk => ?_⟩
  · have held := exec_bandLine_consumes h hn ho hc (by exact hv) (decimateStep_holds h2 he hl grays) rfl
    exact held
  · have dropped := exec_bandLine_consumes h hn ho hc hv (decimateStep_odd_last h2 he hl grays) rfl
    exact dropped
  · obtain ⟨h1, rfl, rfl, rfl⟩ | ⟨top, h2, he, ht, rfl, rfl, rfl⟩ := hk
    · have through := decimateStep_undecimated h1 c.e line
      refine ⟨fun hk hp => ?_, fun hp => ?_⟩
      · have placed := exec_bandLine_appends h hn ho hv through (placedFrom_placed hk hp)
        exact placed
      · have skipped := exec_bandLine_consumes h hn ho hc hv through (placedFrom_skipped hp)
        exact skipped
    · have completed := decimateStep_completes h2 he ht grays
      refine ⟨fun hk hp => ?_, fun hp => ?_⟩
      · have placed := exec_bandLine_appends h hn ho (by exact hv) completed (placedFrom_placed hk hp)
        exact placed
      · have skipped := exec_bandLine_consumes h hn ho hc (by exact hv) completed (placedFrom_skipped hp)
        exact skipped

/-! ### A page without a context (R56) -/

/-- A page without a context keeps its place, without flags or lines (R56). -/
theorem exec_bandLine_orphan {st : BandStep} {grays : Option (List Nat)} {c' : Context} (h : BandDue s r b c)
    (hn : NextLine s r b c st grays) (ho : s.intake.orphan = some c)
    (hp : bandStepPage s.layout s.profile.fillGray c grays = (c', none)) :
    exec .bandLine s = .next (linkFinish s
      (bandLeft b st.advance { s with intake := { s.intake with orphan := some c' } })) := by
  have flags : stepFlags s.intake st c' = c' := by simp [stepFlags, ho]
  have page : s.intake.setPage c' = { s.intake with orphan := some c' } := by simp [Intake.setPage, ho]
  rw [exec_bandLine_unplaced h hn hp, advanceBand_eq, flags, page]
  rfl

/-- A line consumed by a page without a context, its cell full. -/
theorem exec_bandLine_orphan_consumes {st : BandStep} {grays : List Nat} {c' : Context} {out : Option (Nat × List Nat)}
    (h : BandDue s r b c) (hn : NextLine s r b c st (some grays)) (ho : s.intake.orphan = some c)
    (hf : s.layout.hc ≤ c.placed) (hd : decimateStep c c.e grays = (c', out)) :
    exec .bandLine s = .next (linkFinish s
      (bandLeft b st.advance { s with intake := { s.intake with orphan := some { c' with e := c.e + 1 } } })) :=
  exec_bandLine_orphan h hn ho (by simp only [bandStepPage, hd, placedFrom_full hf])

/-- Settles O39: by the judgement of the next line, then by decimation and placement. -/
theorem bandLinesAreConsumedInOrder : Obligations.BandLinesAreConsumedInOrder := by
  intro s r b c hr hb hs hst
  refine ⟨fun cs ho hc hv => ?_, fun ho hfull => ?_⟩
  · have due : BandDue s r b c := ⟨hr, hb, hs, hst, page_context ho hc⟩
    refine ⟨fun hj => ?_, fun he hj => ?_, fun hj he => ?_, fun hj he => ?_⟩
    · have line : NextLine s r b c .repeated none := ⟨bandStep_repeated hj, rfl⟩
      have done := exec_bandLine_discards due line ho hc hv
      rw [union_dup] at done
      exact done
    · have line : NextLine s r b c .beyond none := ⟨bandStep_beyond he hj, rfl⟩
      have done := exec_bandLine_discards due line ho hc hv
      rw [union_long] at done
      exact done
    · have line : NextLine s r b c .expected _ := ⟨bandStep_expected hj he, rfl⟩
      have done := exec_bandLine_consumed due line ho hc hv (union_expected _)
      exact done
    · have line : NextLine s r b c .gapLine _ := ⟨bandStep_gapLine hj he, rfl⟩
      have done := exec_bandLine_consumed due line ho hc hv (union_gap _)
      exact done
  · have due : BandDue s r b c := ⟨hr, hb, hs, hst, by simp [Intake.page, ho]⟩
    refine ⟨fun hj => ?_, fun he hj => ?_, fun n grays he hn => ?_⟩
    · have line : NextLine s r b c .repeated none := ⟨bandStep_repeated hj, rfl⟩
      have done := exec_bandLine_orphan due line ho rfl
      exact done
    · have line : NextLine s r b c .beyond none := ⟨bandStep_beyond he hj, rfl⟩
      have done := exec_bandLine_orphan due line ho rfl
      exact done
    · have line : ∃ st, st.advance = n ∧ NextLine s r b c st (some grays) := by
        obtain ⟨hj, rfl, rfl⟩ | ⟨hj, rfl, rfl⟩ := hn
        · exact ⟨.expected, rfl, bandStep_expected hj he, rfl⟩
        · exact ⟨.gapLine, rfl, bandStep_gapLine hj he, rfl⟩
      obtain ⟨st, rfl, line⟩ := line
      have consumed := fun {c' out} => exec_bandLine_orphan_consumes (c' := c') (out := out) due line ho hfull
      refine ⟨fun h1 => ?_, fun h2 he hl => ?_, fun h2 he hl => ?_, fun h2 he ht => ?_⟩
      · exact consumed (decimateStep_undecimated h1 _ _)
      · have held := consumed (decimateStep_holds h2 he hl _)
        exact held
      · exact consumed (decimateStep_odd_last h2 he hl _)
      · obtain ⟨top, ht⟩ := Option.isSome_iff_exists.mp ht
        have completed := consumed (decimateStep_completes h2 he ht _)
        exact completed

end Sys2Proof.Machine
end

section
/-!
PROOFS. O40, O47: margin and fill lines, an appended line and the hold it ends, and the hold timer's expiry.
-/

open Sys2Proof

namespace Sys2Proof.Machine

variable {s : State}

/-! ### Margin and fill lines (O40) -/

theorem storeRoom_iff : storeRoom s = true ↔ s.intake.store.length < 8 := decide_eq_true_iff

theorem exec_topMarginLine_waits {c : Context} (hp : s.intake.page = some c) (hs : 8 ≤ s.intake.store.length) :
    exec .topMarginLine s = .next s := by
  have full : ¬ (s.intake.state = .fillTop ∧ storeRoom s = true) := fun h => by have := storeRoom_iff.mp h.2; omega
  simp only [exec, execTopMarginLine, appendTopMargin, hp, if_neg full]

theorem exec_topMarginLine_appends {c : Context} (hp : s.intake.page = some c) (hst : s.intake.state = .fillTop)
    (hs : s.intake.store.length < 8) : exec .topMarginLine s = .next
      (if c.vOff.marginLines ≤ c.placed + 1 then
        (appendFill c s).setIntake { (appendFill c s).intake with state := .taking }
      else appendFill c s) := by
  simp only [exec, execTopMarginLine, appendTopMargin, hp, hst, storeRoom_iff.mpr hs, and_self, if_true]

theorem exec_fillLine_waits {c : Context} (hp : s.intake.page = some c) (hs : 8 ≤ s.intake.store.length) :
    exec .fillLine s = .next s := by
  have full : ¬ (s.intake.state = .fillBottom ∧ storeRoom s = true) := fun h => by have := storeRoom_iff.mp h.2; omega
  simp only [exec, execFillLine, appendBottomFill, hp, if_neg full]

theorem exec_fillLine_appends {c : Context} (hp : s.intake.page = some c) (hst : s.intake.state = .fillBottom)
    (hs : s.intake.store.length < 8) : exec .fillLine s = .next
      (if s.layout.hc ≤ c.placed + 1 then
        (appendFill c s).setIntake { (appendFill c s).intake with state := .pageIdle }
      else appendFill c s) := by
  simp only [exec, execFillLine, appendBottomFill, hp, hst, storeRoom_iff.mpr hs, and_self, if_true]

theorem marginAndFillLinesAreAppended : Clauses.MarginAndFillLinesAreAppended := by
  intro s cs c ho hc u
  have hp := page_context ho hc
  refine ⟨fun hst => ⟨exec_topMarginLine_waits hp, fun hs => ?_⟩, fun hst => ⟨exec_fillLine_waits hp, fun hs => ?_⟩⟩
  · rw [exec_topMarginLine_appends hp hst hs]
    exact ⟨fun h => by rw [if_neg (by omega)]; rfl, fun h => by rw [if_pos h]; rfl⟩
  · rw [exec_fillLine_appends hp hst hs]
    exact ⟨fun h => by rw [if_neg (by omega)]; rfl, fun h => by rw [if_pos h]; rfl⟩

/-! ### An appended line (O40) -/

theorem storeLine_context {i : Intake} {cs : List Context} {c0 : Context} (ho : i.orphan = none)
    (hc : i.contexts = cs ++ [c0]) (c : Context) (grays : List Nat) : storeLine c grays i = { i with
      contexts := cs ++ [{ c with placed := c.placed + 1 }]
      store := i.store ++ [{ cell := c.cell, lineNo := c.placed, grays := grays }] } := by
  rw [storeLine, setPage_context ho hc]

theorem endHold_not_holding (h : s.engine.state ≠ .holding) : endHold s = s := by
  unfold endHold
  (repeat' split) <;> simp_all

/-- A line of another context does not end a hold (R71). -/
theorem endHold_other_context {x : Exposure} {l : PlacedLine} {rest : List PlacedLine}
    (hx : s.engine.exposure = some x) (hl : s.intake.store = l :: rest) (hc : l.cell ≠ x.cell) : endHold s = s := by
  simp [endHold, hx, hl, hc]

/-- The context's line at the store head ends the hold with its line start (R71, R76). -/
theorem endHold_starts {x : Exposure} {l : PlacedLine} {rest : List PlacedLine} (he : s.engine.state = .holding)
    (hx : s.engine.exposure = some x) (hl : s.intake.store = l :: rest) (hc : l.cell = x.cell)
    (hm : mayDrive s x = true) :
    endHold s = startImage x l.grays (s.setIntake { s.intake with store := rest }) := by
  simp [endHold, he, hx, hl, hc, hm]

theorem appendedLineEndsTheHold : Clauses.AppendedLineEndsTheHold := by
  intro s cs c0 c grays ho hc contexts base
  have appended : appendLine c grays s = endHold base := by
    rw [appendLine, storeLine_context ho hc]
    rfl
  rw [appended]
  refine ⟨fun he => endHold_not_holding he, fun x he hx hs => ?_⟩
  have store : base.intake.store = [{ cell := c.cell, lineNo := c.placed, grays := grays }] := by simp [base, hs]
  exact ⟨endHold_other_context (s := base) hx store, fun hcell hm => endHold_starts (s := base) he hx store hcell hm⟩

/-- Settles O40: each kind of line in its state, and the appended line at the store's tail. -/
theorem marginAndFillLinesEnterTheStore : Obligations.MarginAndFillLinesEnterTheStore :=
  ⟨marginAndFillLinesAreAppended, appendedLineEndsTheHold⟩

/-! ### The hold timer's expiry (O47) -/

/-- Page intake after the purge of its EXPOSING context `c` (R61). -/
def Intake.purged (i : Intake) (c : Context) (rest : List Context) : Intake :=
  { i with
    store := i.store.filter fun l => l.cell != c.cell
    contexts := { c with voided := true, pendingLine := none } :: rest
    state := purgedState i }

theorem purgedState_eq {i : Intake} {c : Context} {rest : List Context} (h : i.contexts = c :: rest) :
    purgedState i = if rest = [] then
        match i.state with
        | .fillTop | .taking | .discarding => .discarding
        | .fillBottom | .pageIdle => .pageIdle
      else i.state := by
  cases rest with
  | nil =>
    simp only [purgedState, h, List.length_singleton, if_true]
    cases i.state <;> rfl
  | cons a rest => simp [purgedState, h]

/-- The purge drops a band in hand where the purged page is the current one (R61, R62). -/
theorem purgeExposing_eq {c : Context} {rest : List Context} (h : s.intake.contexts = c :: rest) :
    purgeExposing s =
      if rest = [] ∧ s.intake.band.isSome = true then removeHead (s.setIntake (s.intake.purged c rest))
      else s.setIntake (s.intake.purged c rest) := by
  simp only [purgeExposing, h]
  cases rest with
  | nil => simp only [List.isEmpty_nil, if_true, true_and]; rfl
  | cons a rest => simp only [List.isEmpty_cons, Bool.false_eq_true, if_false, reduceCtorEq, false_and]; rfl

/-- The state in which a voided frame's first flood line falls due (R77). -/
def floodingEntered (s : State) : State :=
  (purgeExposing s).setEngine { s.engine with state := .flooding, holdTimer := none, driven := none }

theorem floodingEntered_frame (s : State) : (floodingEntered s).profile = s.profile ∧
    (floodingEntered s).layout = s.layout ∧ (floodingEntered s).head = s.head ∧
    ∀ x, mayDrive (floodingEntered s) x = mayDrive s x := by
  have tables : (floodingEntered s).tables = s.tables := by simp [floodingEntered]
  exact ⟨State.profile_eq tables, State.layout_eq tables, by simp [floodingEntered],
    fun x => by simp [floodingEntered, mayDrive]⟩

/-- FLOODING is entered behind the purge (R77). -/
theorem voidFrame_eq {x : Exposure} (hx : s.engine.exposure = some x) :
    voidFrame s = startFlood x (floodingEntered s) := by
  have engine : (purgeExposing s).engine = s.engine := by simp
  simp only [voidFrame, engine, State.setEngine_engine, hx, floodingEntered]

/-- The engine at a void: FLOODING, the first flood line driven with m latched where lines may be driven (R77, R78). -/
def floodingEngine (x : Exposure) (s : State) : Engine :=
  if mayDrive s x = true then
    { s.engine with
      state := .flooding, holdTimer := none, m := s.head.mAvg
      widths := List.replicate s.layout.wc s.profile.voidPulse, driven := some .flood
      exposure := some { x with
        mMin := some (min (x.mMin.getD s.head.mAvg) s.head.mAvg)
        mMax := some (max (x.mMax.getD s.head.mAvg) s.head.mAvg) } }
  else { s.engine with state := .flooding, holdTimer := none, driven := none }

theorem startFlood_floodingEntered (x : Exposure) (s : State) :
    startFlood x (floodingEntered s) = (purgeExposing s).setEngine (floodingEngine x s) := by
  obtain ⟨profile, layout, head, drives⟩ := floodingEntered_frame s
  rw [startFlood, drives, floodingEngine, profile, layout, head, latchMin_eq, latchMax_eq]
  split <;> rfl

theorem voidPurgesAndFloods : Clauses.VoidPurgesAndFloods := by
  intro s x c rest hx hc v
  have intake : s.intake.purged c rest = v.intake :=
    congrArg (fun st => { s.intake.purged c rest with state := st }) (purgedState_eq hc)
  have engine : floodingEngine x s = v.engine := rfl
  rw [voidFrame_eq hx, startFlood_floodingEntered, purgeExposing_eq hc, intake, engine]
  refine ⟨fun h => ?_, fun hr hb => ?_⟩
  · rw [if_neg fun ⟨hr, hb⟩ => h.elim (· hr) fun hn => by simp [hn] at hb]
    rfl
  · rw [if_pos ⟨hr, hb⟩]
    rfl

/-- Settles O47: the expiry is the void, and the void is the purge with the engine FLOODING. -/
theorem holdExpiryVoidsTheFrame : Obligations.HoldExpiryVoidsTheFrame :=
  ⟨fun s he ht => exec_conclude (by simp [expireHold, he, ht]), voidPurgesAndFloods⟩

end Sys2Proof.Machine
end

section
/-!
PROOFS. O41, O42: an image's place in its cell, the columns of a placed line, the pixels of a source line and of a
decimated one.
-/

open Sys2Proof

namespace Sys2Proof.Machine

/-! ### Placement (O41) -/

theorem placementOffset_fits {image cell : Nat} (h : image ≤ cell) (align : Sys2Proof.Machine.Alignment) :
    placementOffset image cell align = .margin (if align = .centre then (cell - image) / 2 else 0) := by
  cases align <;> simp [placementOffset, h]

theorem placementOffset_larger {image cell : Nat} (h : cell < image) (align : Sys2Proof.Machine.Alignment) :
    placementOffset image cell align = .skip (if align = .centre then (image - cell) / 2 else 0) := by
  cases align <;> simp [placementOffset, Nat.not_le.mpr h]

/-- A margin leaves the whole image in the cell (R43). -/
theorem margin_add_le {image cell ml : Nat} {align : Sys2Proof.Machine.Alignment}
    (h : placementOffset image cell align = .margin ml) : ml + image ≤ cell := by
  by_cases hi : image ≤ cell
  · rw [placementOffset_fits hi] at h
    cases h
    split <;> omega
  · rw [placementOffset_larger (Nat.not_le.mp hi)] at h
    cases h

/-- A skip leaves the cell full of image columns (R43). -/
theorem skip_add_le {image cell sx : Nat} {align : Sys2Proof.Machine.Alignment}
    (h : placementOffset image cell align = .skip sx) : sx + cell ≤ image := by
  by_cases hi : image ≤ cell
  · rw [placementOffset_fits hi] at h
    cases h
  · rw [placementOffset_larger (Nat.not_le.mp hi)] at h
    cases h
    split <;> omega

/-- Under a margin a placed line is fill gray, image, fill gray (R54). -/
theorem composeLine_margin {wc fill ml : Nat} {src : List Nat} (h : ml + src.length ≤ wc) :
    (composeLine wc fill (.margin ml) src).length = wc ∧
    ∀ i < wc, (composeLine wc fill (.margin ml) src)[i]? =
      if ml ≤ i ∧ i < ml + src.length then src[i - ml]? else some fill := by
  refine ⟨by simp [composeLine]; omega, fun i hi => ?_⟩
  simp only [composeLine, List.append_assoc]
  by_cases h1 : i < ml
  · rw [if_neg (by omega), List.getElem?_append_left (by simpa using h1), List.getElem?_replicate, if_pos h1]
  · rw [List.getElem?_append_right (by simpa using h1), List.length_replicate]
    by_cases h2 : i < ml + src.length
    · rw [if_pos (by omega), List.getElem?_append_left (by omega)]
    · rw [if_neg (by omega), List.getElem?_append_right (by omega), List.getElem?_replicate, if_pos (by omega)]

/-- Under a skip a placed line is the image's columns from the skip on (R54). -/
theorem composeLine_skip {wc fill sx : Nat} {src : List Nat} (h : sx + wc ≤ src.length) :
    (composeLine wc fill (.skip sx) src).length = wc ∧
    ∀ i < wc, (composeLine wc fill (.skip sx) src)[i]? = src[sx + i]? :=
  ⟨by simp [composeLine]; omega, fun i hi => by simp [composeLine, hi]⟩

/-- Settles O41: the offset by the image's size, and the columns by the offset. -/
theorem imagesArePlacedInTheirCell : Obligations.ImagesArePlacedInTheirCell := by
  refine ⟨fun image cell => ⟨fun h => ⟨placementOffset_fits h _, placementOffset_fits h _⟩,
    fun h => ⟨placementOffset_larger h _, placementOffset_larger h _⟩⟩, ?_⟩
  intro wc fill align src out
  cases ho : placementOffset src.length wc align with
  | margin ml =>
    obtain ⟨length, columns⟩ := composeLine_margin (fill := fill) (margin_add_le ho)
    rw [← ho] at length columns
    exact ⟨length, fun _ hm => by cases hm; exact columns, fun _ hs => nomatch hs⟩
  | skip sx =>
    obtain ⟨length, columns⟩ := composeLine_skip (fill := fill) (skip_add_le ho)
    rw [← ho] at length columns
    exact ⟨length, fun _ hm => (nomatch hm), fun _ hs => by cases hs; exact columns⟩

/-! ### Pixels (O42) -/

theorem expandLine_deep (w : Nat) (src : List Byte) : expandLine w 8 src = src.map BitVec.toNat := if_pos rfl

theorem expandLine_bits (w : Nat) (src : List Byte) : expandLine w 1 src = (List.range w).map (pixelGray src) :=
  if_neg (by decide)

theorem pixelsExpandToGray : Clauses.PixelsExpandToGray := by
  intro w src
  refine ⟨rfl, rfl, fun _ => expandLine_deep w src, by simp [expandLine_bits], fun j hj b hb => ?_⟩
  have byte : src.getD (j / 8) 0 = b := by rw [List.getD_eq_getElem?_getD, hb, Option.getD_some]
  simp only [expandLine_bits, List.getElem?_map, List.getElem?_range hj, Option.map_some, pixelGray, byte]

/-- The decimated line takes its columns two by two from both lines; an odd last column takes no part (R52). -/
theorem decimateLines_columns (top bottom : List Nat) (h : top.length = bottom.length) :
    (decimateLines top bottom).length = top.length / 2 ∧
    ∀ j, j < top.length / 2 →
      (decimateLines top bottom)[j]? = some ((top.getD (2 * j) 0 + top.getD (2 * j + 1) 0
        + bottom.getD (2 * j) 0 + bottom.getD (2 * j + 1) 0 + 2) / 4) := by
  induction top, bottom using decimateLines.induct with
  | case1 a b top c e bottom ih =>
    simp only [List.length_cons, Nat.add_right_cancel_iff] at h
    obtain ⟨length, columns⟩ := ih h
    refine ⟨by simp only [decimateLines, List.length_cons, length]; omega, fun j hj => ?_⟩
    cases j with
    | zero => rfl
    | succ j =>
      rw [decimateLines, List.getElem?_cons_succ, columns j (by simp only [List.length_cons] at hj; omega)]
      rfl
  | case2 top bottom hshort =>
    have short : top.length / 2 = 0 := by
      match top, bottom, h with
      | [], _, _ => exact Nat.zero_div 2
      | [a], _, _ => exact Nat.div_eq_of_lt (by simp)
      | a :: b :: top, c :: e :: bottom, _ => exact (hshort a b top c e bottom rfl rfl).elim
    rw [short, decimateLines]
    · exact ⟨rfl, fun j hj => absurd hj (Nat.not_lt_zero j)⟩
    · exact hshort

theorem decimationAveragesBlocks : Clauses.DecimationAveragesBlocks := by
  refine ⟨decimateLines_columns, fun c k top bottom h2 => ⟨fun hk => ?_, ?_⟩, fun fill c b payload => rfl⟩
  · exact decimateStep_holds h2 (by omega) (by omega) top
  · rw [decimateStep_completes (c := { c with pendingLine := some top }) h2 (by omega) rfl,
      show (2 * k + 1) / 2 = k by omega]

/-- Settles O42, by the pixels of a line and the columns of two. -/
theorem pixelsBecomeDecimatedLines : Obligations.PixelsBecomeDecimatedLines :=
  ⟨pixelsExpandToGray, decimationAveragesBlocks⟩

end Sys2Proof.Machine
end

section
/-!
PROOFS. Numbers of several bytes and the fields of a payload (R184, R206): what is written at an offset is read there.
-/

namespace Sys2Proof.Machine

/-! ### Numbers and bytes -/

theorem bytesToNat_append (a b : List Byte) : bytesToNat (a ++ b) = bytesToNat a * 256 ^ b.length + bytesToNat b := by
  induction b using List.reverseRecOn with
  | nil => simp [bytesToNat]
  | append_singleton b x ih =>
    simp only [bytesToNat, ← List.append_assoc, List.foldl_append, List.foldl_cons, List.foldl_nil] at ih ⊢
    rw [ih, List.length_append, List.length_singleton, Nat.pow_succ]
    ring

theorem bytesToNat_cons (x : Byte) (b : List Byte) : bytesToNat (x :: b) = x.toNat * 256 ^ b.length + bytesToNat b := by
  rw [← List.singleton_append, bytesToNat_append]
  simp [bytesToNat]

@[simp] theorem natToBytes_length (n v : Nat) : (natToBytes n v).length = n := by
  induction n with
  | zero => rfl
  | succ n ih => simp [natToBytes, ih]

/-- n bytes keep a number up to 256 to the n (R184). -/
theorem bytesToNat_natToBytes_mod (n v : Nat) : bytesToNat (natToBytes n v) = v % 256 ^ n := by
  induction n with
  | zero => simp [natToBytes, bytesToNat, Nat.mod_one]
  | succ n ih =>
    rw [natToBytes, bytesToNat_cons, ih, natToBytes_length, BitVec.toNat_ofNat, Nat.pow_succ (n := 256),
      Nat.mod_mul, Nat.add_comm, Nat.mul_comm]

theorem bytesToNat_natToBytes {n v : Nat} (h : v < 256 ^ n) : bytesToNat (natToBytes n v) = v := by
  rw [bytesToNat_natToBytes_mod, Nat.mod_eq_of_lt h]

/-! ### Fields at their offsets -/

/-- Fields behind others are read at the offset that is left. -/
@[simp] theorem numberAt_append {a b : List Byte} {k n : Nat} (h : a.length ≤ k) :
    numberAt (a ++ b) k n = numberAt b (k - a.length) n := by
  rw [numberAt, numberAt, List.drop_append, List.drop_of_length_le h, List.nil_append]

@[simp] theorem numberAt_cons (x : Byte) (b : List Byte) (k n : Nat) : numberAt (x :: b) (k + 1) n = numberAt b k n := rfl

theorem numberAt_drop (bs : List Byte) (m k n : Nat) : numberAt (bs.drop m) k n = numberAt bs (m + k) n := by
  simp [numberAt]

/-- A number in front is read back (R184). -/
@[simp] theorem numberAt_front {n v : Nat} (h : v < 256 ^ n) (b : List Byte) : numberAt (natToBytes n v ++ b) 0 n = v := by
  rw [numberAt, List.drop_zero, List.take_left' (natToBytes_length n v), bytesToNat_natToBytes h]

@[simp] theorem numberAt_natToBytes {n v : Nat} (h : v < 256 ^ n) : numberAt (natToBytes n v) 0 n = v := by
  simpa using numberAt_front h []

theorem byteAt_cons_zero (x : Byte) (b : List Byte) : byteAt (x :: b) 0 = x.toNat := by
  simp [byteAt, numberAt, bytesToNat]

end Sys2Proof.Machine
end

section
/-!
PROOFS. O58: what the field checks of layouts, profiles, table payloads and PHEADs accept.
-/

open Sys2Proof

namespace Sys2Proof.Machine

/-! ### Layouts and profiles -/

theorem layoutsThatPass : Clauses.LayoutsThatPass := by
  intro l
  have cells : 1 ≤ l.dataCells ↔ (if l.titleRow = true then l.columns else 0) + l.indexCells < l.rows * l.columns := by
    unfold Layout.dataCells
    omega
  have title : (!l.titleRow || decide (2 ≤ l.rows)) = true ↔ (l.titleRow = true → 2 ≤ l.rows) := by
    cases l.titleRow <;> simp
  simp only [Layout.ok, Bool.and_eq_true, decide_eq_true_eq, title, cells, and_assoc]

theorem profilesThatPass : Clauses.ProfilesThatPass := by
  intro p
  have pulse : p.pulseMax + 32 ≤ p.linePeriod ↔ (p.pulseMax : Int) ≤ (p.linePeriod : Int) - 32 := by omega
  simp only [Profile.ok, Bool.and_eq_true, Bool.or_eq_true, decide_eq_true_eq, beq_iff_eq, pulse, List.mem_cons,
    List.not_mem_nil, or_false, and_assoc, or_assoc]

/-! ### Coded fields -/

theorem readYesNo_isSome (n : Nat) : (readYesNo n).isSome = true ↔ n ≤ 1 := by
  unfold readYesNo
  (repeat' split) <;> simp <;> omega

theorem readNamed_isSome {α : Type} (a b : α) (n : Nat) : (readNamed a b n).isSome = true ↔ n ≤ 1 := by
  unfold readNamed
  (repeat' split) <;> simp <;> omega

theorem isQuarterOffset_iff (n : Nat) : isQuarterOffset n = true ↔ n ∈ [0, 64, 128, 192] := by
  simp [isQuarterOffset, or_assoc]

theorem readSelector_iff (n : Nat) (sel : TableSel) : readSelector n = some sel ↔ n = sel.code.toNat := by
  unfold readSelector
  split <;> cases sel <;> simp_all [TableSel.code]

/-! ### Table payloads -/

theorem readEntry_iff (p : List Byte) (sel : TableSel) (n : Nat) : readEntry p = some (sel, n) ↔
    2 ≤ p.length ∧ byteAt p 0 = sel.code.toNat ∧ byteAt p 1 = n ∧ n < sel.size := by
  rw [← readSelector_iff]
  unfold readEntry
  split
  · simp only [reduceCtorEq, false_iff]
    omega
  · cases readSelector (byteAt p 0) with
    | none => simp
    | some t =>
      dsimp only
      split <;> rename_i hlt <;> simp only [Option.some.injEq, Prod.mk.injEq, reduceCtorEq, false_iff]
      · exact ⟨fun ⟨ht, hn⟩ => ⟨by omega, ht, hn, ht ▸ hn ▸ hlt⟩, fun ⟨_, ht, hn, _⟩ => ⟨ht, hn⟩⟩
      · exact fun ⟨_, ht, hn, hlt'⟩ => hlt (ht ▸ hn ▸ hlt')

theorem judgeTread_iff (p : List Byte) (sel : TableSel) (n offset : Nat) : judgeTread p = some (sel, n, offset) ↔
    p.length = 3 ∧ readEntry p = some (sel, n) ∧ offset = byteAt p 2 ∧
      (sel = .curve → offset ∈ [0, 64, 128, 192]) := by
  have quarter : ∀ sel', ¬ (sel' = TableSel.curve ∧ isQuarterOffset (byteAt p 2) = false) ↔
      (sel' = TableSel.curve → byteAt p 2 ∈ [0, 64, 128, 192]) := fun sel' => by
    rw [← isQuarterOffset_iff, not_and, Bool.not_eq_false]
  unfold judgeTread
  split
  · simp [*]
  · cases readEntry p with
    | none => simp
    | some e =>
      obtain ⟨sel', n'⟩ := e
      dsimp only
      split <;> rename_i hq
      · simp only [reduceCtorEq, Option.some.injEq, Prod.mk.injEq, false_iff]
        rintro ⟨-, ⟨rfl, -⟩, rfl, hsel⟩
        exact (quarter _).mpr hsel hq
      · simp only [Option.some.injEq, Prod.mk.injEq]
        constructor
        · rintro ⟨rfl, rfl, rfl⟩
          exact ⟨by omega, ⟨rfl, rfl⟩, rfl, (quarter _).mp hq⟩
        · rintro ⟨-, ⟨rfl, rfl⟩, rfl, -⟩
          exact ⟨rfl, rfl, rfl⟩

theorem readLayout_isSome (c : List Byte) :
    (readLayout c).isSome = true ↔ c.length = 17 ∧ byteAt c 14 ≤ 1 ∧ byteAt c 16 ≤ 1 := by
  rw [← readYesNo_isSome, ← readNamed_isSome FillOrder.row FillOrder.column, readLayout]
  split
  · simp [*]
  · cases readYesNo (byteAt c 14) <;> cases readNamed FillOrder.row FillOrder.column (byteAt c 16) <;> simp_all

theorem readProfile_isSome (c : List Byte) : (readProfile c).isSome = true ↔
    c.length = 27 ∧ byteAt c 9 ≤ 1 ∧ byteAt c 14 ≤ 1 ∧ byteAt c 20 ≤ 1 ∧ byteAt c 21 ≤ 1 ∧ byteAt c 26 ≤ 1 := by
  rw [← readNamed_isSome Sys2Proof.Machine.Alignment.centre .topLeft, ← readNamed_isSome true false (byteAt c 14),
    ← readNamed_isSome CompareBasis.raw .averaged, ← readNamed_isSome AlertMode.latched .transparent,
    ← readYesNo_isSome, readProfile]
  split
  · simp [*]
  · split
    · simp_all
    · rename_i hnone
      simp only [Option.isSome_none, Bool.false_eq_true, Option.isSome_iff_exists, false_iff]
      rintro ⟨-, ⟨a, ha⟩, ⟨b, hb⟩, ⟨d, hd⟩, ⟨e, he⟩, ⟨f, hf⟩⟩
      exact hnone a b d e f ha hb hd he hf

/-- The values of a quarter stand two bytes apart (R162). -/
theorem readValues_eq (n : Nat) (bs : List Byte) :
    readValues n bs = (List.range n).map fun i => numberAt bs (2 * i) 2 := by
  induction n generalizing bs with
  | zero => rfl
  | succ n ih =>
    rw [readValues, ih, List.range_succ_eq_map, List.map_cons, List.map_map]
    refine congrArg₂ _ rfl (List.map_congr_left fun i _ => ?_)
    rw [numberAt_drop, Function.comp_apply, show 2 * i.succ = 2 + 2 * i by omega]

theorem readQuarter_isSome (c : List Byte) : (readQuarter c).isSome = true ↔
    c.length = 130 ∧ byteAt c 0 ∈ [0, 64, 128, 192] ∧ byteAt c 1 = 64 ∧ ∀ i < 64, numberAt c (2 + 2 * i) 2 ≤ 8191 := by
  have values : (readValues 64 (c.drop 2)).all (fun v => v ≤ 8191) = true ↔
      ∀ i < 64, numberAt c (2 + 2 * i) 2 ≤ 8191 := by
    simp only [readValues_eq, List.all_map, List.all_eq_true, List.mem_range, Function.comp_apply, numberAt_drop,
      decide_eq_true_eq]
  rw [← isQuarterOffset_iff, ← values, readQuarter]
  split <;> simp_all

theorem readUnit_isSome (c : List Byte) : (readUnit c).isSome = true ↔ c.length = 2 ∧ byteAt c 1 ≤ 1 := by
  rw [← readYesNo_isSome, readUnit]
  split <;> simp_all

theorem tablePayloadsThatRead : Clauses.TablePayloadsThatRead := by
  refine ⟨fun p sel n => ?_, judgeTread_iff, readLayout_isSome, readProfile_isSome, readQuarter_isSome, readUnit_isSome⟩
  rw [readEntry_iff]
  cases sel <;> simp [TableSel.code, TableSel.size] <;> omega

/-! ### PHEAD -/

theorem pheadFieldsOk_iff (w h depth d k : Nat) : pheadFieldsOk w h depth d k = true ↔
    (1 ≤ w ∧ w ≤ 4096) ∧ (1 ≤ h ∧ h ≤ 6144) ∧ (depth = 1 ∨ depth = 8) ∧ (d = 1 ∨ d = 2) ∧ k ≤ 24 ∧
      (d = 2 → 2 ≤ w ∧ 2 ≤ h) := by
  simp only [pheadFieldsOk, Bool.and_eq_true, Bool.or_eq_true, Bool.not_eq_true', Bool.and_eq_false_iff,
    Bool.or_eq_false_iff, decide_eq_true_eq, decide_eq_false_iff_not, beq_iff_eq, beq_eq_false_iff_ne, and_assoc]
  omega

theorem readTarget_isSome (p : List Byte) : (readTarget p).isSome = true ↔ byteAt p 0 ≤ 1 := by
  unfold readTarget
  (repeat' split) <;> simp <;> omega

/-- A PHEAD is read where its length, its fields and its target kind pass, with the fields at their offsets (R40, R206). -/
theorem readPhead_eq_some {p : List Byte} {f : PheadFields} : readPhead p = some f ↔
    10 ≤ p.length ∧ p.length = 10 + byteAt p 3 ∧
      pheadFieldsOk (numberAt p 6 2) (numberAt p 8 2) (byteAt p 1) (byteAt p 2) (byteAt p 3) = true ∧
      ∃ t, readTarget p = some t ∧ f =
        { target := t, w := numberAt p 6 2, h := numberAt p 8 2, depth := byteAt p 1, d := byteAt p 2
          key := keyOf (p.drop 10) } := by
  unfold readPhead
  split
  · simp only [reduceCtorEq, false_iff]
    omega
  · split
    · rename_i hlen hok
      simp only [Option.map_eq_some_iff, hok, true_and, eq_comm (a := f)]
      exact ⟨fun h => ⟨by omega, by omega, h⟩, fun h => h.2.2⟩
    · simp [*]

theorem pheadsThatPass : Clauses.PheadsThatPass := by
  intro p
  refine ⟨?_, fun f hf => ?_⟩
  · rw [← readTarget_isSome, Option.isSome_iff_exists, Option.isSome_iff_exists]
    simp only [readPhead_eq_some, pheadFieldsOk_iff]
    constructor
    · rintro ⟨f, h10, hlen, ⟨hw, hh, hdepth, hd, hk, h2⟩, t, ht, -⟩
      exact ⟨h10, hlen, ⟨t, ht⟩, hw, hh, hdepth, hd, hk, h2⟩
    · rintro ⟨h10, hlen, ⟨t, ht⟩, hw, hh, hdepth, hd, hk, h2⟩
      exact ⟨_, h10, hlen, ⟨hw, hh, hdepth, hd, hk, h2⟩, t, ht, rfl⟩
  · obtain ⟨-, hlen, -, t, ht, rfl⟩ := readPhead_eq_some.mp hf
    refine ⟨rfl, rfl, rfl, rfl, ?_, ?_⟩
    · unfold readTarget at ht
      (repeat' split at ht) <;> cases ht <;> simp [*]
    · have empty : p.drop 10 = [] ↔ byteAt p 3 = 0 := by
        rw [List.drop_eq_nil_iff]
        omega
      simp only [keyOf, empty]

/-- Settles O58: each reader's conditions, one by one. -/
theorem fieldChecksAcceptTheRanges : Obligations.FieldChecksAcceptTheRanges :=
  ⟨layoutsThatPass, profilesThatPass, tablePayloadsThatRead, pheadsThatPass⟩

end Sys2Proof.Machine
end

section
/-!
PROOFS. O17: the payloads of FOPEN, PHEAD, PBAND and TREAD and the replies of the motion port are read back.
-/

open Sys2Proof

namespace Sys2Proof.Machine

/-! ### Payloads -/

theorem readFopen_fopenPayload {n : Nat} (q : FicheSeq) (h : n < 256) :
    readFopen (fopenPayload n q) = some { profile := n, seq := q } := by
  have profile : byteAt (fopenPayload n q) 0 = n := by simp [fopenPayload, byteAt, h]
  have seq : numberAt (fopenPayload n q) 1 4 = q.toNat := by simp [fopenPayload, q.isLt]
  rw [readFopen, if_pos (by simp [fopenPayload]), profile, seq, BitVec.ofNat_toNat, BitVec.setWidth_eq]

/-- The fields of a PHEAD at their offsets (R206). -/
theorem pheadPayload_fields {f : PheadFields} (hd : f.depth < 256) (h2 : f.d < 256) (hk : (f.key.getD []).length < 256)
    (hc : (targetBytes f.target).2 < 65536) (hw : f.w < 65536) (hh : f.h < 65536) :
    byteAt (pheadPayload f) 0 = (targetBytes f.target).1.toNat ∧
    byteAt (pheadPayload f) 1 = f.depth ∧ byteAt (pheadPayload f) 2 = f.d ∧
    byteAt (pheadPayload f) 3 = (f.key.getD []).length ∧
    numberAt (pheadPayload f) 4 2 = (targetBytes f.target).2 ∧
    numberAt (pheadPayload f) 6 2 = f.w ∧ numberAt (pheadPayload f) 8 2 = f.h := by
  simp only [pheadPayload, List.append_assoc, List.cons_append]
  refine ⟨byteAt_cons_zero .., ?_, ?_, ?_, ?_, ?_, ?_⟩ <;> simp [byteAt, hd, h2, hk, hc, hw, hh]

theorem keyOf_getD {key : Option (List Byte)} (h : key ≠ some []) : keyOf (key.getD []) = key := by
  cases key with
  | none => rfl
  | some k => exact if_neg fun hk => h (congrArg some hk)

theorem readPhead_pheadPayload {f : PheadFields}
    (hf : pheadFieldsOk f.w f.h f.depth f.d (f.key.getD []).length = true) (hkey : f.key ≠ some [])
    (ht : ∀ c, f.target = .explicit c → c ≤ 65535) : readPhead (pheadPayload f) = some f := by
  have cell : (targetBytes f.target).2 < 65536 := by
    cases h : f.target with
    | next => exact Nat.zero_lt_succ _
    | explicit c => exact Nat.lt_succ_of_le (ht c h)
  obtain ⟨hw, hh, hdepth, hd, hk, -⟩ := (pheadFieldsOk_iff ..).mp hf
  obtain ⟨h0, h1, h2, h3, h4, h6, h8⟩ := pheadPayload_fields (f := f) (by omega) (by omega) (by omega) cell (by omega)
    (by omega)
  have length : (pheadPayload f).length = 10 + (f.key.getD []).length := by
    simp only [pheadPayload, List.length_append, List.length_cons, natToBytes_length]
  have key : (pheadPayload f).drop 10 = f.key.getD [] := List.drop_left' (by simp)
  have target : readTarget (pheadPayload f) = some f.target := by
    rw [readTarget, h0, h4]
    cases f.target <;> rfl
  refine readPhead_eq_some.mpr ⟨by omega, by omega, ?_, f.target, target, ?_⟩
  · rwa [h1, h2, h3, h6, h8]
  · rw [h1, h2, h6, h8, key, keyOf_getD hkey]

theorem readBand_pbandPayload {w depth first count : Nat} {lines : List Byte} (hf : first < 65536) (h1 : 1 ≤ count)
    (h16 : count ≤ 16) (hl : lines.length = count * bytesPerLine w depth) :
    readBand w depth (pbandPayload first count lines) = .inr { first := first, count := count, dealt := 0 } := by
  have number : numberAt (pbandPayload first count lines) 0 2 = first := by simp [pbandPayload, hf]
  have counted : byteAt (pbandPayload first count lines) 2 = count := by
    simp [pbandPayload, byteAt, show count < 256 by omega]
  have length : (pbandPayload first count lines).length = 3 + lines.length := by simp [pbandPayload]; omega
  rw [readBand_counted (by omega) (by omega) (by omega), counted, number, if_neg (by omega)]

theorem TableSel.size_le (sel : TableSel) : sel.size ≤ 8 := by cases sel <;> decide

theorem judgeTread_treadPayload {sel : TableSel} {n offset : Nat} (hn : n < sel.size)
    (hq : sel = .curve → isQuarterOffset offset = true) (ho : offset < 256) :
    judgeTread (treadPayload sel n offset) = some (sel, n, offset) := by
  have entry : byteAt (treadPayload sel n offset) 1 = n := by
    simp [treadPayload, byteAt, show n < 256 by have := sel.size_le; omega]
  have quarter : byteAt (treadPayload sel n offset) 2 = offset := by simp [treadPayload, byteAt, ho]
  refine (judgeTread_iff ..).mpr ⟨by simp [treadPayload], (readEntry_iff ..).mpr ?_, quarter.symm,
    fun hs => (isQuarterOffset_iff _).mp (hq hs)⟩
  exact ⟨by simp [treadPayload], byteAt_cons_zero .., entry, hn⟩

/-! ### Decimal numbers (R137) -/

theorem digitByte_toNat {d : Nat} (h : d < 10) : (digitByte d).toNat = 48 + d := by
  rw [digitByte, BitVec.toNat_ofNat]
  omega

theorem mem_decimalDigits {fuel n : Nat} {b : Byte} (h : b ∈ decimalDigits fuel n) : 48 ≤ b.toNat ∧ b.toNat ≤ 57 := by
  induction fuel generalizing n with
  | zero => simp [decimalDigits] at h
  | succ fuel ih =>
    have digit : ∀ d, d < 10 → b = digitByte d → 48 ≤ b.toNat ∧ b.toNat ≤ 57 := by
      rintro d hd rfl
      rw [digitByte_toNat hd]
      omega
    rw [decimalDigits] at h
    split at h
    · exact digit n ‹_› (List.mem_singleton.mp h)
    · rcases List.mem_append.mp h with h | h
      · exact ih h
      · exact digit _ (Nat.mod_lt _ (by decide)) (List.mem_singleton.mp h)

theorem decimalDigits_length_le (fuel n : Nat) : (decimalDigits fuel n).length ≤ fuel := by
  induction fuel generalizing n with
  | zero => exact Nat.le_refl 0
  | succ fuel ih =>
    rw [decimalDigits]
    split
    · simp
    · simpa using ih (n / 10)

theorem digitsValue_concat {xs : List Byte} {acc v d : Nat} (h : digitsValue acc xs = some v) (hd : d < 10) :
    digitsValue acc (xs ++ [digitByte d]) = some (v * 10 + d) := by
  induction xs generalizing acc with
  | nil =>
    cases h
    rw [List.nil_append, digitsValue, digitByte_toNat hd, if_pos (by omega), digitsValue, Nat.add_sub_cancel_left]
  | cons x xs ih =>
    rw [digitsValue] at h
    split at h
    · rw [List.cons_append, digitsValue, if_pos ‹_›, ih h]
    · cases h

/-- The digits of a number are read as that number. -/
theorem digitsValue_decimalDigits {fuel n : Nat} (h : n < 10 ^ fuel) (hf : fuel ≠ 0) :
    digitsValue 0 (decimalDigits fuel n) = some n := by
  induction fuel generalizing n with
  | zero => exact absurd rfl hf
  | succ fuel ih =>
    rw [decimalDigits]
    split
    · simpa using digitsValue_concat (xs := []) (acc := 0) (v := 0) rfl ‹n < 10›
    · have tens : n / 10 < 10 ^ fuel := Nat.div_lt_of_lt_mul (by rwa [Nat.pow_succ'] at h)
      have some_fuel : fuel ≠ 0 := by rintro rfl; omega
      rw [digitsValue_concat (ih tens some_fuel) (Nat.mod_lt _ (by decide)), Nat.div_add_mod' n 10]

/-- A number above 0 is written without a leading zero. -/
theorem decimalDigits_head {fuel n : Nat} (h : n < 10 ^ fuel) (hn : 1 ≤ n) :
    ∃ d, 1 ≤ d ∧ d < 10 ∧ (decimalDigits fuel n).head? = some (digitByte d) := by
  induction fuel generalizing n with
  | zero => omega
  | succ fuel ih =>
    rw [decimalDigits]
    split
    · exact ⟨n, hn, ‹_›, rfl⟩
    · obtain ⟨d, h1, h9, hd⟩ := ih (n := n / 10) (Nat.div_lt_of_lt_mul (by rwa [Nat.pow_succ'] at h)) (by omega)
      exact ⟨d, h1, h9, by rw [List.head?_append, hd, Option.some_or]⟩

theorem readNumber_digits {bs : List Byte} {b : Byte} {n : Nat} (hb : bs.head? = some b) (h48 : b ≠ 48)
    (hv : digitsValue 0 bs = some n) (hn : n ≤ 255) : readNumber bs = some (BitVec.ofNat 8 n) := by
  cases bs with
  | nil => cases hb
  | cons x rest =>
    cases hb
    simp only [readNumber, h48, false_and, if_false, hv, hn, if_true]

/-- A command number is read back from its decimal digits (R137, R139). -/
theorem readNumber_decimal (n : CommandNumber) : readNumber (decimal n.toNat) = some n := by
  have small := n.isLt
  by_cases h0 : n.toNat = 0
  · have zero : n = 0 := BitVec.eq_of_toNat_eq h0
    subst zero
    decide
  · obtain ⟨d, h1, h9, hd⟩ := decimalDigits_head (fuel := 5) (n := n.toNat) (by omega) (by omega)
    have nonzero : digitByte d ≠ 48 := fun h => by
      have := digitByte_toNat h9
      rw [h, show (48 : Byte).toNat = 48 from rfl] at this
      omega
    rw [decimal, readNumber_digits hd nonzero (digitsValue_decimalDigits (by omega) (by decide)) (by omega),
      BitVec.ofNat_toNat, BitVec.setWidth_eq]

/-! ### Lines and fields (R137) -/

/-- A field's characters: neither the space that separates fields nor the line feed that ends the line. -/
def IsField (f : List Byte) : Prop := ∀ b ∈ f, b ≠ space ∧ b ≠ lineFeed

theorem decimal_isField (n : Nat) : IsField (decimal n) := by
  intro b hb
  have low := (mem_decimalDigits hb).1
  constructor <;> rintro rfl <;> exact absurd low (by decide)

theorem replyCodeWord_isField (c : ReplyCode) : IsField (replyCodeWord c) := by
  unfold IsField
  cases c <;> decide

theorem splitFields_last {f : List Byte} (h : IsField f) : splitFields f = [f] := by
  induction f with
  | nil => rfl
  | cons b f ih => rw [splitFields, if_neg (h b (by simp)).1, ih fun x hx => h x (by simp [hx])]

theorem splitFields_field {f : List Byte} (h : IsField f) (rest : List Byte) :
    splitFields (f ++ space :: rest) = f :: splitFields rest := by
  induction f with
  | nil => rw [List.nil_append, splitFields, if_pos rfl]
  | cons b f ih => rw [List.cons_append, splitFields, if_neg (h b (by simp)).1, ih fun x hx => h x (by simp [hx])]

/-- What a reply's line is written from: fields without line feeds, short enough for the port (R137). -/
structure IsReplyBody (body : List Byte) : Prop where
  no_lineFeed : ∀ b ∈ body, b ≠ lineFeed
  short : body.length < Config.motionLineMax

theorem IsReplyBody.readable {body : List Byte} (h : IsReplyBody body) :
    ¬ (isOneLine (body ++ [lineFeed]) = false ∨ (body ++ [lineFeed]).length > Config.motionLineMax) := by
  have line : isOneLine (body ++ [lineFeed]) = true := by simpa [isOneLine] using h.no_lineFeed
  have short := h.short
  rw [line, List.length_append, List.length_singleton]
  simp only [Bool.true_eq_false, false_or]
  omega

/-- A line of two fields is read as a DONE (R139). -/
theorem readReply_done {body number : List Byte} {n : CommandNumber} (h : IsReplyBody body)
    (hs : splitFields body = [wordDone, number]) (hn : readNumber number = some n) :
    readReply (body ++ [lineFeed]) = some (.done n) := by
  rw [readReply, if_neg h.readable, List.dropLast_concat, hs]
  simp only [if_true, hn, Option.map_some]

/-- A line of three fields is read as a FAULT (R139). -/
theorem readReply_fault {body number code : List Byte} {n : CommandNumber} {c : ReplyCode} (h : IsReplyBody body)
    (hs : splitFields body = [wordFault, number, code]) (hn : readNumber number = some n)
    (hc : readReplyCode code = some c) : readReply (body ++ [lineFeed]) = some (.fault n c) := by
  rw [readReply, if_neg h.readable, List.dropLast_concat, hs]
  simp only [if_true, hn, hc]

theorem readReplyCode_word (c : ReplyCode) : readReplyCode (replyCodeWord c) = some c := by cases c <;> decide

theorem replyCodeWord_length_le (c : ReplyCode) : (replyCodeWord c).length ≤ 8 := by cases c <;> decide

theorem readReply_replyLine (r : Reply) : readReply (replyLine r) = some r := by
  cases r with
  | done n =>
    have word : IsField wordDone := by unfold IsField; decide
    have number := decimal_isField n.toNat
    have digits : (decimal n.toNat).length ≤ 5 := decimalDigits_length_le ..
    have body : IsReplyBody (wordDone ++ space :: decimal n.toNat) := by
      refine ⟨?_, by simp [wordDone, Config.motionLineMax]; omega⟩
      simp only [List.mem_append, List.mem_cons]
      rintro b (hb | rfl | hb)
      · exact (word b hb).2
      · decide
      · exact (number b hb).2
    exact readReply_done body (by rw [splitFields_field word, splitFields_last number]) (readNumber_decimal n)
  | fault n c =>
    have word : IsField wordFault := by unfold IsField; decide
    have number := decimal_isField n.toNat
    have code := replyCodeWord_isField c
    have digits : (decimal n.toNat).length ≤ 5 := decimalDigits_length_le ..
    have letters := replyCodeWord_length_le c
    have body : IsReplyBody (wordFault ++ space :: decimal n.toNat ++ space :: replyCodeWord c) := by
      refine ⟨?_, by simp [wordFault, Config.motionLineMax]; omega⟩
      simp only [List.mem_append, List.mem_cons]
      rintro b ((hb | rfl | hb) | rfl | hb)
      · exact (word b hb).2
      · decide
      · exact (number b hb).2
      · decide
      · exact (code b hb).2
    have fields : splitFields (wordFault ++ space :: decimal n.toNat ++ space :: replyCodeWord c) =
        [wordFault, decimal n.toNat, replyCodeWord c] := by
      rw [List.append_assoc, List.cons_append, splitFields_field word, splitFields_field number, splitFields_last code]
    exact readReply_fault body fields (readNumber_decimal n) (readReplyCode_word c)

/-- Settles O17, payload by payload; the replies by their fields. -/
theorem payloadsAndRepliesReadBack : Obligations.PayloadsAndRepliesReadBack :=
  ⟨fun _ q h => readFopen_fopenPayload q (Nat.lt_succ_of_le h), fun _ => readPhead_pheadPayload,
    fun _ _ _ _ _ hf => readBand_pbandPayload (Nat.lt_succ_of_le hf),
    fun _ _ _ hn hq ho => judgeTread_treadPayload hn hq (Nat.lt_succ_of_le ho), readReply_replyLine⟩

end Sys2Proof.Machine
end

section
/-!
PROOFS. O8: every command keeps the engine's state and what it holds in agreement, by the records and events that reach the
exposure engine.
-/

namespace Sys2Proof.Machine

variable {s t : State}

/-! ### Records -/

/-- Of the records only a PHEAD's take, a PBAND's lines and an FCLOSE reach the engine. -/
theorem otherRecords_engine (he : offerFopen s = some t ∨ examinePhead s = some t ∨ examinePband s = some t ∨
    examinePend s = some t ∨ offerTwrite s = some t ∨ offerTread s = some t ∨ offerQstat s = some t) :
    t.engine = s.engine := by
  rcases he with he | he | he | he | he | he | he
  · obtain ⟨r, code, rfl⟩ | ⟨r, f, rfl, -, -⟩ := offerFopen_cases he
    · simp
    · simp [takeFopen]
  · unfold examinePhead checkPhead at he
    (repeat' split at he) <;> cases he <;> simp
  · unfold examinePband beginBand at he
    (repeat' split at he) <;> cases he <;> simp
  · unfold examinePend at he
    (repeat' split at he) <;> cases he <;> simp
  · unfold offerTwrite at he
    (repeat' split at he) <;> cases he <;> simp
  · unfold offerTread at he
    (repeat' split at he) <;> cases he <;> simp
  · unfold offerQstat clearOption at he
    (repeat' split at he) <;> cases he <;> simp

theorem removeHead_engineOk (h : EngineOk s) : EngineOk (removeHead s) := h.same (by simp)

/-- The take of a PHEAD admits the new context where the engine is IDLE (R42, R66). -/
theorem takePhead_engineOk (h : EngineOk s) (he : takePhead s = some t) : EngineOk t := by
  unfold takePhead at he
  (repeat' split at he) <;> cases he
  · exact h.same (by simp)
  · exact h.same (by simp)
  · exact h.same (by simp)
  · rename_i f _ _ cell _
    have assigned : ∀ i, EngineOk ((assignCell cell f.key s).setIntake i) := fun i => h.same (by simp)
    exact removeHead_engineOk (admit_engineOk (assigned _))

/-- A line of the band in hand ends a hold where it enters the store (R49, R76). -/
theorem takeBandLine_engineOk (h : EngineOk s) (he : takeBandLine s = some t) : EngineOk t := by
  have advanced : ∀ {b n u}, EngineOk u → EngineOk (advanceBand b n u) := fun hu => by
    unfold advanceBand
    split <;> exact hu.same (by simp)
  unfold takeBandLine consumeLine at he
  dsimp only at he
  (repeat' split at he) <;> cases he
  · exact advanced (h.same rfl)
  · exact advanced (appendLine_engineOk h)

theorem appendTopMargin_engineOk (h : EngineOk s) : EngineOk (appendTopMargin s) := by
  unfold appendTopMargin
  dsimp only
  (repeat' split)
  · exact h
  · exact (appendLine_engineOk h).same rfl
  · exact appendLine_engineOk h
  · exact h

theorem appendBottomFill_engineOk (h : EngineOk s) : EngineOk (appendBottomFill s) := by
  unfold appendBottomFill
  dsimp only
  (repeat' split)
  · exact h
  · exact (appendLine_engineOk h).same rfl
  · exact appendLine_engineOk h
  · exact h

theorem offerFclose_engineOk (h : EngineOk s) (he : offerFclose s = some t) : EngineOk t := by
  unfold offerFclose at he
  (repeat' split at he) <;> cases he
  · exact h.same (by simp)
  · unfold takeFclose
    split <;> exact jobTests_engineOk (h.same (by simp))

/-! ### Conversions, timers and line ends -/

theorem acceptConversion_engineOk {raw : Nat} (h : EngineOk s) (he : acceptConversion raw s = some t) : EngineOk t := by
  have taken : EngineOk (takeConversion raw s) := takeConversion_engineOk h
  unfold acceptConversion at he
  dsimp only at he
  (repeat' split at he) <;> cases he
  · exact jobTests_engineOk taken
  · exact taken

theorem expireWarm_engineOk (h : EngineOk s) (he : expireWarm s = some t) : EngineOk t := by
  unfold expireWarm at he
  split at he <;> cases he
  exact jobTests_engineOk (takeHeadNotReady_engineOk (h.same (by simp)))

theorem endImageLine_engineOk (h : EngineOk s) (he : endImageLine s = some t) : EngineOk t := by
  unfold endImageLine at he
  split at he <;> cases he
  exact jobTests_engineOk (imageLineEnd_engineOk h ‹_›)

theorem endFloodLine_engineOk (h : EngineOk s) (he : endFloodLine s = some t) : EngineOk t := by
  unfold endFloodLine at he
  split at he <;> cases he
  exact jobTests_engineOk (floodLineEnd_engineOk h ‹_›)

/-- The hold that expires has its exposure side, as every state but IDLE has (R65, R77). -/
theorem expireHold_engineOk (h : EngineOk s) (he : expireHold s = some t) : EngineOk t := by
  unfold expireHold at he
  split at he <;> cases he
  rename_i hold
  exact voidFrame_engineOk h (h.exposure_state.mpr (by simp [hold.1]))

/-! ### Placed reports and replies -/

theorem placeWaiting_engineOk (h : EngineOk s) (he : placeWaiting s = some t) : EngineOk t := by
  unfold placeWaiting at he
  (repeat' split at he) <;> cases he
  rename_i p r rest _ _
  have placed : EngineOk (s.setLink { s.link with slots := rest, reports := s.link.reports ++ [r] }) := h.same rfl
  cases p with
  | engine =>
    simp only [producerProceeds]
    split
    · exact jobTests_engineOk release_engineOk
    · exact jobTests_engineOk placed
  | job => exact jobTests_engineOk placed
  | tables => exact placed
  | status => exact placed
  | link => exact placed
  | priority => exact placed

theorem takeDone_engineOk {n : CommandNumber} (h : EngineOk s) (he : takeDone n s = some t) : EngineOk t := by
  unfold takeDone at he
  (repeat' split at he) <;> cases he
  exact jobTests_engineOk (motionDone_engineOk h)

theorem takeFault_engineOk {n : CommandNumber} {code : ReplyCode} (h : EngineOk s) (he : takeFault n code s = some t) :
    EngineOk t := by
  unfold takeFault at he
  (repeat' split at he) <;> cases he
  · exact jobTests_engineOk (transportFault_engineOk h)
  · exact jobTests_engineOk (transportFault_engineOk h)
  · exact jobTests_engineOk (loadNoStock_engineOk h)

theorem takeTimeout_engineOk (h : EngineOk s) (he : takeTimeout s = some t) : EngineOk t := by
  unfold takeTimeout at he
  split at he <;> cases he
  exact jobTests_engineOk (transportFault_engineOk h)

theorem takeLine_engineOk {l : List Byte} (h : EngineOk s) (he : takeLine l s = some t) : EngineOk t := by
  unfold takeLine at he
  split at he
  · cases he
  · exact takeDone_engineOk h he
  · exact takeFault_engineOk h he

/-! ### Link loss, ABORT and RESET -/

theorem engineSlotCleared_engineOk (h : EngineOk s) : EngineOk (engineSlotCleared s) := by
  unfold engineSlotCleared
  split
  · exact release_engineOk
  · exact h

theorem engineSlotLost_engineOk (h : EngineOk s) : EngineOk (engineSlotLost s) := by
  unfold engineSlotLost
  split
  · exact releaseOnly_engineOk
  · exact h

theorem takeAbort_engineOk {tag : Tag} {e : LinkErrReport} (h : EngineOk s) : EngineOk (takeAbort tag e s) := by
  unfold takeAbort
  dsimp only
  (repeat' split)
  · exact jobTests_engineOk (endingActions_engineOk (h.same (by simp)))
  · exact h.same (by simp)
  · exact h.same (by simp)

theorem softResetJob_engineOk {again : Bool} (h : EngineOk s) : EngineOk (softResetJob again s) := by
  unfold softResetJob
  (repeat' split) <;> first
    | exact h
    | exact endingActions_engineOk (h.same (by simp))
    | exact h.same (by simp)

theorem takeSoftReset_engineOk {tag : Tag} (h : EngineOk s) : EngineOk (takeSoftReset tag s) := by
  have reset : EngineOk (resetLink .soft tag s) := h.same (by simp [resetLink])
  have proceeded := jobProceeds_engineOk (engineSlotCleared_engineOk reset)
  exact jobTests_engineOk (softResetJob_engineOk (clearIntake_engineOk (proceeded.same (by simp))))

theorem takeFullReset_engineOk {tag : Tag} (h : EngineOk s) : EngineOk (takeFullReset tag s) := by
  have reset : EngineOk (resetLink .full tag s) := h.same (by simp [resetLink])
  have discarded := (engineSlotLost_engineOk reset).same
    (t := discardFiche (releasePins (discardPending (clearAlerts (engineSlotLost (resetLink .full tag s))))))
    (by simp [discardFiche])
  exact jobTests_engineOk (stopEngine_engineOk (clearIntake_engineOk discarded))

theorem takeFrame_engineOk {bytes : List Byte} (h : EngineOk s) : EngineOk (takeFrame bytes s) := by
  unfold takeFrame
  split
  · exact h.same (by simp)
  · unfold takeRecord
    split
    · exact takeAbort_engineOk h
    · split
      · exact takeFullReset_engineOk h
      · exact takeSoftReset_engineOk h
    all_goals (repeat' split) <;> exact h.same (by simp)

theorem linkLost_engineOk {cause : LossCause} (h : EngineOk s) :
    EngineOk (jobTests (takeLinkLoss (jobProceeds (engineSlotCleared (linkDown cause s))))) := by
  have down : EngineOk (linkDown cause s) := h.same rfl
  have proceeded := jobProceeds_engineOk (engineSlotCleared_engineOk down)
  unfold takeLinkLoss
  (repeat' split) <;> first
    | exact jobTests_engineOk proceeded
    | exact jobTests_engineOk (endingActions_engineOk (proceeded.same (by simp)))

/-! ### Every command -/

/-- What the link interface's end of an event keeps, the event's end keeps of what its own action kept. -/
theorem conclude_keeps {P : State → Prop} {after : Option State} (hf : ∀ s0 u, P u → P (linkFinish s0 u)) (h : P s)
    (ha : ∀ u, after = some u → P u) (he : conclude s after = .next t) : P t := by
  cases after with
  | none => cases he; exact h
  | some u => cases he; exact hf s u (ha u rfl)

/-- So does an event of the link, with the link in the state that allows it or not. -/
theorem linkEvent_keeps {P : State → Prop} {p : Prop} [Decidable p] {u : State}
    (hf : ∀ s0 u, P u → P (linkFinish s0 u)) (h : P s) (hu : P u)
    (he : (if p then .next (linkFinish s u) else .next s : Host.Outcome State Fault Refusal) = .next t) : P t := by
  split at he <;> cases he
  · exact hf s u hu
  · exact h

theorem linkFinish_engineOk (s0 u : State) (h : EngineOk u) : EngineOk (linkFinish s0 u) := h.same (by simp)

theorem exec_engineOk {c : Instr} (h : EngineOk s) (he : exec c s = .next t) : EngineOk t := by
  have concluded : ∀ {after}, (∀ u, after = some u → EngineOk u) → conclude s after = .next t → EngineOk t :=
    conclude_keeps linkFinish_engineOk h
  cases c with
  | powerOn => cases he; exact engineOk_reset.same rfl
  | signalDetectRising =>
    simp only [exec, execSignalDetectRising] at he
    split at he <;> cases he <;> exact h.same rfl
  | alignment =>
    simp only [exec, execAlignment] at he
    split at he <;> cases he <;> exact h.same (by simp)
  | lossOfSignal cause =>
    simp only [exec, execLossOfSignal] at he
    split at he <;> cases he
    · exact h
    · exact linkLost_engineOk h
  | frameReceived bytes => exact linkEvent_keeps linkFinish_engineOk h (takeFrame_engineOk h) he
  | frameEndedByStartDelimiter bytes =>
    have dropped : EngineOk (dropFrame (linkErrOf .linkCrc bytes) true s) := h.same (by simp)
    exact linkEvent_keeps linkFinish_engineOk h dropped he
  | transmissionEnds =>
    simp only [exec, execTransmissionEnds] at he
    split at he <;> cases he <;> exact h.same (by simp)
  | reportPlaced => exact concluded (fun _ => placeWaiting_engineOk h) he
  | fopen => exact concluded (fun _ hu => h.same (otherRecords_engine (by simp [hu]))) he
  | fclose => exact concluded (fun _ => offerFclose_engineOk h) he
  | phead => exact concluded (fun _ hu => h.same (otherRecords_engine (by simp [hu]))) he
  | pheadTake => exact concluded (fun _ => takePhead_engineOk h) he
  | pband => exact concluded (fun _ hu => h.same (otherRecords_engine (by simp [hu]))) he
  | bandLine => exact concluded (fun _ => takeBandLine_engineOk h) he
  | pend => exact concluded (fun _ hu => h.same (otherRecords_engine (by simp [hu]))) he
  | topMarginLine => cases he; exact appendTopMargin_engineOk h
  | fillLine => cases he; exact appendBottomFill_engineOk h
  | twrite => exact concluded (fun _ hu => h.same (otherRecords_engine (by simp [hu]))) he
  | tread => exact concluded (fun _ hu => h.same (otherRecords_engine (by simp [hu]))) he
  | qstat => exact concluded (fun _ hu => h.same (otherRecords_engine (by simp [hu]))) he
  | abort tag => exact linkEvent_keeps linkFinish_engineOk h (takeAbort_engineOk h) he
  | resetFull tag => exact linkEvent_keeps linkFinish_engineOk h (takeFullReset_engineOk h) he
  | resetSoft tag => exact linkEvent_keeps linkFinish_engineOk h (takeSoftReset_engineOk h) he
  | done n => exact concluded (fun _ => takeDone_engineOk h) he
  | fault n code => exact concluded (fun _ => takeFault_engineOk h) he
  | motionTimeout => exact concluded (fun _ => takeTimeout_engineOk h) he
  | conversion raw => exact concluded (fun _ => acceptConversion_engineOk h) he
  | warmTimerExpiry => exact concluded (fun _ => expireWarm_engineOk h) he
  | parkTimerExpiry =>
    simp only [exec, execParkTimerExpiry] at he
    split at he <;> cases he <;> exact h.same (by simp)
  | lineEnd => exact concluded (fun _ => endImageLine_engineOk h) he
  | floodLineEnd => exact concluded (fun _ => endFloodLine_engineOk h) he
  | holdTimerExpiry => exact concluded (fun _ => expireHold_engineOk h) he
  | lastCharacterSent =>
    simp only [exec, execLastCharacterSent] at he
    split at he <;> cases he <;> exact h.same rfl
  | receivedLineIgnored line => exact concluded (fun _ => takeLine_engineOk h) he

/-- Settles O8: a step is a command on the state with the queue's rest, and every command keeps the agreement. -/
theorem engineStateAgreesWithExposure : Obligations.EngineStateAgreesWithExposure := by
  intro s t h hs
  obtain rfl | ⟨c, rest, he⟩ := step_cases hs
  · exact h
  · exact exec_engineOk (h.same (t := { s with pending := rest }) rfl) he

end Sys2Proof.Machine
end

section
/-!
PROOFS. O43: an image line start, its corrected and clamped widths, and the head port.
-/

namespace Sys2Proof.Machine

variable {s : State}

/-! ### Widths (R73) -/

/-- The clamp acts where the corrected width exceeds pulse max (R73 step 3). -/
theorem drivenWidth_eq (pulseMax c base : Nat) :
    drivenWidth pulseMax c base = if pulseMax < correctedWidth base c then pulseMax else correctedWidth base c := by
  unfold drivenWidth
  split <;> omega

/-- The factor that stands for 1.0 changes no width (R122). -/
theorem correctedWidth_unity (base : Nat) : correctedWidth base 16384 = base := by
  unfold correctedWidth
  omega

/-- The largest width before the clamp: the largest base under the largest factor (R73, R122). -/
theorem correctedWidth_le {base c : Nat} (hc : c ≤ 24576) (hb : base ≤ 8191) : correctedWidth base c ≤ 12287 := by
  have product : base * c ≤ 8191 * 24576 := Nat.mul_le_mul hb hc
  unfold correctedWidth
  omega

/-- The whole next state of an image line start (R72, R73). -/
theorem startImage_eq (x : Exposure) (grays : List Nat) (s : State) :
    startImage x grays s = s.setEngine { s.engine with
      state := .exposing
      holdTimer := none
      m := s.head.mAvg
      c := s.head.c
      sat := s.head.sat
      widths := (baseWidths s.curve grays).map fun base =>
        if s.profile.pulseMax < correctedWidth base s.head.c then s.profile.pulseMax
        else correctedWidth base s.head.c
      driven := some (.image (baseWidths s.curve grays) s.profile.mRef)
      exposure := some { x with
        flags := imageFlags x.flags s.head.sat s.profile.pulseMax s.head.c (baseWidths s.curve grays)
        mMin := some (min (x.mMin.getD s.head.mAvg) s.head.mAvg)
        mMax := some (max (x.mMax.getD s.head.mAvg) s.head.mAvg) } } := by
  simp only [startImage, latchMin_eq, latchMax_eq, ← drivenWidth_eq]

/-! ### The head port (R73, R74) -/

/-- While a line of at most 2,048 widths is driven, the emitters beyond it are dark (R73). -/
theorem headPortWidths_driven (hd : s.engine.driven.isSome = true) (hw : s.engine.widths.length ≤ 2048) :
    s.headPortWidths.length = 2048 ∧
      ∀ i, s.engine.widths.length ≤ i → i < 2048 → s.headPortWidths[i]? = some 0 := by
  obtain ⟨d, hd⟩ := Option.isSome_iff_exists.mp hd
  simp only [State.headPortWidths, hd, Config.emitters]
  refine ⟨by simp; omega, fun i hi h => ?_⟩
  rw [List.getElem?_append_right hi, List.getElem?_replicate, if_pos (by omega)]

/-- With no line driven every emitter is dark (R74). -/
theorem headPortWidths_dark (h : s.engine.driven = none) : s.headPortWidths = List.replicate 2048 0 := by
  simp only [State.headPortWidths, h, Config.emitters]

/-- Settles O43, by the whole next state of the line start, the head port behind it, and the correction's arithmetic. -/
theorem imageLineWidthsAreCorrectedAndClamped : Obligations.ImageLineWidthsAreCorrectedAndClamped := by
  intro x grays s
  have width : (startImage x grays s).engine.widths.length = grays.length := by simp [startImage, baseWidths]
  refine ⟨startImage_eq x grays s, fun hn => ?_, ?_, fun hc base hb => correctedWidth_le hc hb⟩
  · simpa only [width] using headPortWidths_driven (s := startImage x grays s) rfl (by rw [width]; exact hn)
  · intro hc base
    simp only [hc]
    exact correctedWidth_unity base

end Sys2Proof.Machine
end

section
/-!
PROOFS. O52: a compared value by its place among the limits and by alert mode, and the correction factor.
-/

namespace Sys2Proof.Machine

variable {s : State} {v : Nat}

/-! ### Alerts (R117 to R119) -/

/-- LATCHED keeps an ACTIVE state, TRANSPARENT does not (R117, R118). -/
theorem alertAfter_eq (mode : AlertMode) (old excursion : Bool) :
    alertAfter mode old excursion = (mode == .latched && old || excursion) := by
  cases mode <;> simp [alertAfter]

/-- A state that was ACTIVE before, or is CLEAR now, gives no report (R119). -/
theorem limitAlert_silent {kind : AlertKind} {old new : Bool} (h : new = true → old = true) (u : State) :
    limitAlert kind v old new u = u := by
  unfold limitAlert
  cases old <;> simp_all

/-- The ALERT of an excursion (R119). -/
def excursionReport (kind : AlertKind) (v : Nat) (s : State) : Report :=
  .limitAlert
    { kind := kind, value := v, basis := s.profile.basis
      limit := match kind with
        | .overLimit => s.profile.overLimit
        | .underLimit => s.profile.underLimit
      headState := s.head.state, seq := s.ficheSeq }

/-- A state that is ACTIVE now gives a report where it was CLEAR and reports are enabled (R119). -/
theorem limitAlert_active (kind : AlertKind) (old : Bool) (s : State) :
    limitAlert kind v old true s = if old = false ∧ s.tables.unit.alertReports = true then
      composeDiscard (excursionReport kind v s) s else s := by
  unfold limitAlert
  cases old
  · simp only [Bool.not_false, Bool.true_and, true_and]
    rfl
  · rfl

/-! ### The compared value (R84, R115, R116) -/

theorem compareValue_inside (hu : s.profile.underLimit ≤ v) (ho : v ≤ s.profile.overLimit) :
    compareValue v s = s.setHead { s.head with
      overActive := s.profile.alertMode == .latched && s.head.overActive
      underActive := s.profile.alertMode == .latched && s.head.underActive } := by
  simp only [compareValue, alertAfter_eq, decide_eq_false (Nat.not_lt.mpr hu), decide_eq_false (Nat.not_lt.mpr ho),
    Bool.or_false, Bool.false_eq_true, if_false]
  rw [limitAlert_silent (by simp), limitAlert_silent (by simp)]

/-- LIMIT is marked on a frame in progress: an engine in EXPOSING, HOLDING or FLOODING (R84). -/
theorem signalExcursion_eq (s : State) : signalExcursion s =
    match s.engine.exposure with
    | some x =>
      if s.engine.state = .exposing ∨ s.engine.state = .holding ∨ s.engine.state = .flooding then
        { s with engine := { s.engine with exposure := some { x with flags := { x.flags with limit := true } } } }
      else s
    | none => s := by
  have inFrame : ∀ e : EngineState, e.inFrame = true ↔ e = .exposing ∨ e = .holding ∨ e = .flooding := by
    intro e
    cases e <;> decide
  simp only [signalExcursion, inFrame]
  rfl

/-- An excursion's effect but for its ALERT: the mark on the frame and the alert states. -/
def excursionTaken (overNow underNow : Bool) (s : State) : State :=
  { signalExcursion s with head := { s.head with overActive := overNow, underActive := underNow } }

/-- The ALERT says the same before and after the excursion is taken. -/
theorem limitAlert_excursionTaken (kind : AlertKind) (old overNow underNow : Bool) (s : State) :
    limitAlert kind v old true (excursionTaken overNow underNow s) =
      if old = false ∧ s.tables.unit.alertReports = true then
        composeDiscard (excursionReport kind v s) (excursionTaken overNow underNow s)
      else excursionTaken overNow underNow s := by
  have tables : (excursionTaken overNow underNow s).tables = s.tables := by simp [excursionTaken]
  have report : excursionReport kind v (excursionTaken overNow underNow s) = excursionReport kind v s := by
    simp only [excursionReport, State.profile_eq tables]
    simp [excursionTaken, State.ficheSeq]
  rw [limitAlert_active, tables, report]

/-- What a comparison with one excursion does before its reports. -/
theorem excursionTaken_eq (overNow underNow : Bool) (s : State) : excursionTaken overNow underNow s =
    (signalExcursion s).setHead
      { (signalExcursion s).head with overActive := overNow, underActive := underNow } := by
  simp [excursionTaken, State.setHead]

theorem compareValue_over (hl : s.profile.underLimit < s.profile.overLimit) (hv : s.profile.overLimit < v) :
    compareValue v s = limitAlert .overLimit v s.head.overActive true
      (excursionTaken true (s.profile.alertMode == .latched && s.head.underActive) s) := by
  simp only [compareValue, alertAfter_eq, decide_eq_true hv, decide_eq_false (show ¬ v < s.profile.underLimit by omega),
    Bool.or_false, Bool.or_true, if_true, ← excursionTaken_eq]
  exact limitAlert_silent (by simp) _

theorem compareValue_under (hl : s.profile.underLimit < s.profile.overLimit) (hv : v < s.profile.underLimit) :
    compareValue v s = limitAlert .underLimit v s.head.underActive true
      (excursionTaken (s.profile.alertMode == .latched && s.head.overActive) true s) := by
  simp only [compareValue, alertAfter_eq, decide_eq_true hv, decide_eq_false (show ¬ s.profile.overLimit < v by omega),
    Bool.or_false, Bool.or_true, if_true, ← excursionTaken_eq]
  rw [limitAlert_silent (kind := .overLimit) (by simp)]

theorem comparedValuesSetTheAlerts : Clauses.ComparedValuesSetTheAlerts := by
  intro v s hl
  refine ⟨fun hu ho => compareValue_inside hu ho, fun hv => ?_, fun hv => ?_⟩
  · rw [compareValue_over hl hv, limitAlert_excursionTaken, excursionTaken, signalExcursion_eq]
    rfl
  · rw [compareValue_under hl hv, limitAlert_excursionTaken, excursionTaken, signalExcursion_eq]
    rfl

/-! ### The correction factor (R122, R123) -/

theorem correctionFollowsTheRatio : Clauses.CorrectionFollowsTheRatio := by
  intro p m
  refine ⟨fun h => if_pos h, fun h => ?_, fun h hm => ?_, correctionOf_range p m⟩
  · simp [correctionOf, h, Config.cMax]
  · have clamped : correctionOf p m = (max 12288 (min 24576 (correctionQuotient p.mRef m)),
        decide (correctionQuotient p.mRef m < 12288) || decide (24576 < correctionQuotient p.mRef m)) := by
      rw [correctionOf, if_neg (by simp [h]), if_neg (by omega)]
      rfl
    intro q
    rw [clamped, show correctionQuotient p.mRef m = q from rfl]
    refine ⟨fun hq => ?_, fun hq => ?_, fun h1 h2 => ?_⟩
    · rw [Nat.min_eq_right (by omega), Nat.max_eq_left (by omega), decide_eq_true hq, Bool.true_or]
    · rw [Nat.min_eq_left (by omega), decide_eq_true hq, Bool.or_true]
      rfl
    · rw [Nat.min_eq_right h2, Nat.max_eq_right h1, decide_eq_false (by omega), decide_eq_false (by omega), Bool.or_self]

/-- Settles O52, by a compared value's place among the limits and by the factor's clamps. -/
theorem headMonitorComparesAndCorrects : Obligations.HeadMonitorComparesAndCorrects :=
  ⟨comparedValuesSetTheAlerts, correctionFollowsTheRatio⟩

end Sys2Proof.Machine
end

section
/-!
PROOFS. O57: the characters of a motion command and the bytes of a FRAME and of a CREDIT.
-/

open Sys2Proof

namespace Sys2Proof.Machine

/-! ### Decimal numbers as written (R137) -/

/-- A number below 10 to the k takes at most k digits. -/
theorem decimalDigits_length_le_of_lt {fuel k n : Nat} (h : n < 10 ^ k) (hk : 1 ≤ k) :
    (decimalDigits fuel n).length ≤ k := by
  induction fuel generalizing k n with
  | zero => exact Nat.zero_le k
  | succ fuel ih =>
    rw [decimalDigits]
    split
    · exact hk
    · obtain ⟨k, rfl⟩ : ∃ j, k = j + 1 := ⟨k - 1, by omega⟩
      have tens : n / 10 < 10 ^ k := Nat.div_lt_of_lt_mul (by rwa [Nat.pow_succ'] at h)
      have more : 1 ≤ k := by
        by_contra hk0
        obtain rfl : k = 0 := by omega
        omega
      simpa using ih tens more

theorem decimalDigits_ne_nil (fuel n : Nat) : decimalDigits (fuel + 1) n ≠ [] := by
  rw [decimalDigits]
  split <;> simp

/-- A run of digits that is read as a number has the value its digits give. -/
theorem foldl_of_digitsValue {xs : List Byte} {acc v : Nat} (h : digitsValue acc xs = some v) :
    xs.foldl (fun v b => 10 * v + (b.toNat - 48)) acc = v := by
  induction xs generalizing acc with
  | nil => exact Option.some.inj h
  | cons x xs ih =>
    rw [digitsValue] at h
    split at h
    · rw [List.foldl_cons, Nat.mul_comm]
      exact ih h
    · cases h

theorem decimal_written {n : Nat} (h : n ≤ 65535) :
    (decimal n).foldl (fun v b => 10 * v + (b.toNat - 48)) 0 = n ∧
    (∀ b ∈ decimal n, 48 ≤ b.toNat ∧ b.toNat ≤ 57) ∧ 1 ≤ (decimal n).length ∧ (decimal n).length ≤ 5 ∧
    (10 ≤ n → (decimal n).head? ≠ some 48) := by
  refine ⟨foldl_of_digitsValue (digitsValue_decimalDigits (by omega) (by decide)), fun b => mem_decimalDigits,
    List.length_pos_of_ne_nil (decimalDigits_ne_nil 4 n), decimalDigits_length_le 5 n, fun hn hz => ?_⟩
  obtain ⟨d, h1, h9, hd⟩ := decimalDigits_head (fuel := 5) (n := n) (by omega) (by omega)
  have zero : digitByte d = 48 := Option.some.inj (hd.symm.trans hz)
  have value := digitByte_toNat h9
  rw [zero, show (48 : Byte).toNat = 48 from rfl] at value
  omega

/-- A command number takes at most 3 digits. -/
theorem decimal_number_length (n : CommandNumber) : (decimal n.toNat).length ≤ 3 :=
  decimalDigits_length_le_of_lt (by have := n.isLt; omega) (by decide)

theorem commandLinesAreWritten : Clauses.CommandLinesAreWritten := by
  refine ⟨fun n cell x y st => ⟨?_, ?_, ?_, ?_⟩, fun n h => decimal_written h, fun n cell x y _ _ => ?_⟩
  · simp [commandLine, wordLoad, space, lineFeed]
  · simp [commandLine, wordMove, space, lineFeed]
  · cases st <;> simp [commandLine, wordEject, wordAccept, wordReject, space, lineFeed]
  · simp [commandLine, wordHome, space, lineFeed]
  · have number := decimal_number_length n
    have first : (decimal x).length ≤ 5 := decimalDigits_length_le 5 x
    have second : (decimal y).length ≤ 5 := decimalDigits_length_le 5 y
    simp [commandLine, wordMove]
    omega

/-! ### The flags byte and the CREDIT (R189, R206) -/

theorem flagsByte_written {t : Sending} (h : t.credit ≤ 16) :
    t.flagsByte.toNat % 32 = t.credit ∧ t.flagsByte.getLsbD 5 = t.rebase ∧ t.flagsByte.toNat < 64 := by
  have value : t.flagsByte.toNat = t.credit + if t.rebase then 32 else 0 := by
    rw [Sending.flagsByte, BitVec.toNat_ofNat]
    split <;> omega
  rw [BitVec.getLsbD, Nat.testBit_eq_decide_div_mod_eq, value]
  cases t.rebase <;> simp <;> omega

theorem frameBytes_length (kind flags : Byte) (tag : Tag) (payload : List Byte) :
    (frameBytes kind flags tag payload).length = 12 + payload.length := by
  simp [frameBytes, headerBytes, checkBytes]
  omega

/-! ### The FRAME's flag bits (R206) -/

/-- Bits put together from the lowest up are found at their places. -/
theorem testBit_foldr_bit (bs : List Bool) (k : Nat) : (bs.foldr Nat.bit 0).testBit k = bs.getD k false := by
  induction bs generalizing k with
  | nil => simp
  | cons b bs ih =>
    cases k with
    | zero => simp
    | succ k => simp [Nat.testBit_bit_succ, ih]

/-- The flags of a FRAME in the order of their bits. -/
def FrameFlags.bits (f : FrameFlags) : List Bool :=
  [f.intake.cropped, f.intake.short, f.intake.long, f.intake.gap, f.intake.dup, f.intake.noEnd, f.engine.held,
    f.engine.pulseClamp, f.engine.corrSat, f.engine.limit, f.engine.dose]

theorem FrameFlags.word_eq (f : FrameFlags) : f.word = f.bits.foldr Nat.bit 0 := by
  simp only [FrameFlags.word, FrameFlags.bits, List.foldr_cons, List.foldr_nil, Nat.bit_val]
  ring

theorem foldr_bit_lt (bs : List Bool) : bs.foldr Nat.bit 0 < 2 ^ bs.length := by
  induction bs with
  | nil => exact Nat.one_pos
  | cons b bs ih =>
    have bit := b.toNat_le
    rw [List.foldr_cons, Nat.bit_val, List.length_cons, Nat.pow_succ]
    omega

theorem FrameFlags.word_lt (f : FrameFlags) : f.word < 65536 := by
  rw [f.word_eq]
  exact (foldr_bit_lt f.bits).trans (by simp [FrameFlags.bits])

theorem FrameFlags.word_testBit (f : FrameFlags) (k : Nat) : f.word.testBit k = f.bits.getD k false := by
  rw [f.word_eq, testBit_foldr_bit]

/-! ### The FRAME's items (R206) -/

theorem CellKind.code_lt (k : CellKind) : k.code < 256 := by cases k <;> decide

theorem CellState.code_lt (c : CellState) : c.code < 256 := by cases c <;> decide

/-- What a FRAME's items must fit for their places in the payload (R99, R206). -/
structure FrameFits (r : FrameReport) : Prop where
  cell : r.cell < 65536
  holdCount : r.holdCount < 256
  key : (r.key.getD []).length < 256
  linesExposed : r.linesExposed < 65536
  linesFlooded : r.linesFlooded < 65536
  a : r.a < 1099511627776
  p : r.p < 1099511627776
  mMin : r.mMin < 65536
  mMax : r.mMax < 65536

theorem framePayload_length (r : FrameReport) : (framePayload r).length = 30 + (r.key.getD []).length := by
  simp [framePayload]
  omega

/-- The items of a FRAME at their offsets. -/
theorem framePayload_items {r : FrameReport} (h : FrameFits r) :
    let b := framePayload r;
    numberAt b 0 4 = r.seq.toNat ∧ numberAt b 4 2 = r.cell ∧ byteAt b 6 = r.kind.code ∧ byteAt b 7 = r.final.code ∧
    numberAt b 8 2 = r.flags.word ∧ byteAt b 10 = r.holdCount ∧ byteAt b 11 = (r.key.getD []).length ∧
    numberAt b 12 2 = r.linesExposed ∧ numberAt b 14 2 = r.linesFlooded ∧ numberAt b 16 5 = r.a ∧
    numberAt b 21 5 = r.p ∧ numberAt b 26 2 = r.mMin ∧ numberAt b 28 2 = r.mMax ∧ b.drop 30 = r.key.getD [] := by
  obtain ⟨cell, hold, key, exposed, flooded, a, p, mMin, mMax⟩ := h
  have seq : r.seq.toNat < 4294967296 := r.seq.isLt
  have kind := r.kind.code_lt
  have final := r.final.code_lt
  have word := r.flags.word_lt
  have behind : (framePayload r).drop 30 = r.key.getD [] := List.drop_left' (by simp)
  refine ⟨?_, ?_, ?_, ?_, ?_, ?_, ?_, ?_, ?_, ?_, ?_, ?_, ?_, behind⟩ <;>
    simp only [framePayload, List.append_assoc]
  · simp [seq]
  · simp [cell]
  · simp [byteAt, kind]
  · simp [byteAt, final]
  · simp [word]
  · simp [byteAt, hold]
  · simp [byteAt, key]
  · simp [exposed]
  · simp [flooded]
  · simp [a]
  · simp [p]
  · simp [mMin]
  · simp [mMax]

theorem frameReportsAreWritten : Clauses.FrameReportsAreWritten := by
  refine ⟨fun t => flagsByte_written, fun credit rebase r => rfl,
    fun credit rebase => ⟨rfl, frameBytes_length _ _ _ _⟩,
    fun r hcell hhold hkey hexposed hflooded ha hp hmin hmax => ?_⟩
  obtain ⟨seq, cell, kind, final, word, hold, key, exposed, flooded, a, p, mMin, mMax, behind⟩ :=
    framePayload_items (r := r)
      ⟨by omega, by omega, by omega, by omega, by omega, by omega, by omega, by omega, by omega⟩
  refine ⟨framePayload_length r, seq, cell, kind.trans ?_, fun hf => by rw [final, hf]; rfl,
    fun hf => by rw [final, hf]; rfl, fun hf => by rw [final, hf]; rfl, fun k _ => ?_, hold, key, exposed, flooded, a, p,
    mMin, mMax, behind⟩
  · cases r.kind <;> rfl
  · rw [word]
    exact r.flags.word_testBit k

/-- Settles O57, by the command line's fields, the FRAME's items at their offsets, and the dark head port. -/
theorem outputsAreWrittenAsGiven : Obligations.OutputsAreWrittenAsGiven :=
  ⟨commandLinesAreWritten, frameReportsAreWritten, fun _ => headPortWidths_dark⟩

end Sys2Proof.Machine
end

section
/-!
PROOFS. O49, O50: the frame dose check; every command keeps the doses' bounds by lines, and the bounds of line, frame and
fiche doses follow from them.
-/

namespace Sys2Proof.Machine

variable {s t : State}

/-! ### The frame dose check (R100) -/

theorem doseDisagrees_zero (a tol : Nat) : doseDisagrees a 0 tol = true ↔ 0 < a := by simp [doseDisagrees]

/-- Above P = 0 the check compares the deviation's size with the tolerance. -/
theorem doseDisagrees_pos {p : Nat} (hp : 0 < p) (a tol : Nat) :
    doseDisagrees a p tol = true ↔ tol * p < ((a : Int) - (p : Int)).natAbs * 1000 := by
  have size : (if p ≤ a then a - p else p - a) = ((a : Int) - (p : Int)).natAbs := by
    split <;> omega
  simp [doseDisagrees, hp.ne', size]

/-- A deviation at the tolerance passes; at P = 0 that is A = 0. -/
theorem doseDisagrees_at_tolerance {a p tol : Nat} (h : ((a : Int) - (p : Int)).natAbs * 1000 = tol * p) :
    doseDisagrees a p tol = false := by
  rw [Bool.eq_false_iff]
  rcases Nat.eq_zero_or_pos p with rfl | hp
  · rw [Ne, doseDisagrees_zero]
    omega
  · rw [Ne, doseDisagrees_pos hp, h]
    exact lt_irrefl _

/-- A above P by d and A below P by d are judged alike. -/
theorem doseDisagrees_symm {p d : Nat} (hd : d ≤ p) (tol : Nat) :
    doseDisagrees (p + d) p tol = doseDisagrees (p - d) p tol := by
  rcases Nat.eq_zero_or_pos p with rfl | hp
  · rw [Nat.le_zero.mp hd]
  · have alike : (((p + d : Nat) : Int) - (p : Int)).natAbs = (((p - d : Nat) : Int) - (p : Int)).natAbs := by omega
    rw [Bool.eq_iff_iff, doseDisagrees_pos hp, doseDisagrees_pos hp, alike]

/-- Settles O49: the check at P = 0 and above it, and its place at the frame end of a frame ended from EXPOSING. -/
theorem doseCheckComparesAWithP : Obligations.DoseCheckComparesAWithP := by
  intro a p tol
  refine ⟨fun hp => hp ▸ doseDisagrees_zero a tol, fun hp => doseDisagrees_pos hp a tol, doseDisagrees_at_tolerance,
    fun d hd => doseDisagrees_symm hd tol, fun ha hp ht => ⟨by omega, ?_⟩, fun _ => rfl, fun _ _ => rfl⟩
  calc tol * p ≤ 500 * 51532529664 := Nat.mul_le_mul ht hp
    _ = 25766264832000 := by norm_num

/-! ### The bounds of line, frame and fiche doses (R94 to R96, R99) -/

theorem lineDosesAreBounded : Clauses.LineDosesAreBounded := by
  refine ⟨fun ws level hn hw hl => ?_, fun n level => ⟨by simp [lineDose], by simp [lineDose]⟩⟩
  exact ⟨Nat.div_mul_le_self _ _, Nat.lt_div_mul_add (by decide), lineDose_le ⟨hn, hw⟩ hl⟩

/-- A and P by their lines stay within the bound of a frame of at most 3,072 lines (R99). -/
theorem frameDoses_le {a p exposed flooded : Nat} (ha : a ≤ lineDoseBound * (exposed + flooded))
    (hp : p ≤ lineDoseBound * exposed) (hn : exposed + flooded ≤ 3072) : a ≤ 51532529664 ∧ p ≤ 51532529664 := by
  simp only [lineDoseBound] at ha hp
  omega

/-- The fiche dose is the sum of its cells' doses (R104). -/
theorem ficheDose_le {f : Fiche} (hf : FicheOk f) (hc : ∀ c ∈ f.map, c.a.getD 0 ≤ 51532529664)
    (hn : f.map.length ≤ 420) : f.dose ≤ 21643662458880 := by
  have each : ∀ w ∈ f.map.map (fun c => c.a.getD 0), w ≤ 51532529664 := by simpa using hc
  calc f.dose = (f.map.map fun c => c.a.getD 0).sum := hf.dose
    _ ≤ f.map.length * 51532529664 := by simpa using sum_le_bound each
    _ ≤ 420 * 51532529664 := Nat.mul_le_mul_right _ hn

theorem frameAndFicheDosesAreBounded : Clauses.FrameAndFicheDosesAreBounded := by
  intro s h
  refine ⟨fun x hx => frameDoses_le (h.frame_ok x hx).1 (h.frame_ok x hx).2, fun f hf hn => ?_⟩
  have cells : ∀ c ∈ f.map, c.a.getD 0 ≤ 51532529664 ∧ c.p.getD 0 ≤ 51532529664 := fun c hc =>
    frameDoses_le (h.cells_ok f hf c hc).1 (h.cells_ok f hf c hc).2 (hn c hc)
  exact ⟨cells, fun ok => ficheDose_le ok fun c hc => (cells c hc).1⟩

/-! ### What the tests after an event rest on -/

/-- A state whose doses are in order, with the tables and the head a line start then reads (R71 to R73). -/
structure DoseGround (s : State) : Prop where
  tables : TablesOk s
  head : HeadOk s
  doses : DosesOk s

/-- An operation that leaves the tables, the head and the job controller's wait alone. -/
theorem DoseGround.carried (h : DoseGround s) (hd : DosesOk t) (ht : t.tables = s.tables) (hh : t.head = s.head)
    (hj : t.job.onStop = s.job.onStop) : DoseGround t :=
  ⟨h.tables.same ht hj, h.head.same hh ht, hd⟩

/-- The ground reads nothing of the link and the transport controller. -/
theorem DoseGround.same (h : DoseGround s) (hj : t.job = s.job) (ht : t.tables = s.tables) (hh : t.head = s.head)
    (he : t.engine = s.engine) (hs : t.intake.store = s.intake.store) (hc : t.intake.contexts = s.intake.contexts)
    (ho : t.intake.orphan = s.intake.orphan) : DoseGround t :=
  h.carried (h.doses.same he hs hc ho (by rw [hj])) ht hh (by rw [hj])

theorem DoseGround.lineEnv (h : DoseGround s) : LineEnv s := lineEnv_of_ok h.tables h.head

theorem DoseGround.tested (h : DoseGround s) : DosesOk (jobTests s) := jobTests_doses h.doses h.tables h.head

theorem DoseGround.proceeded (h : DoseGround s) : DoseGround (jobProceeds s) :=
  ⟨jobProceeds_tablesOk h.tables, jobProceeds_headOk h.head, jobProceeds_doses h.doses⟩

theorem DoseGround.released (h : DoseGround s) : DoseGround (release s) :=
  h.carried (release_doses h.doses) (by simp) (by simp) (by simp)

theorem DoseGround.withOutcome {o : FicheOutcome} (h : DoseGround s) : DoseGround (setOutcome o s) :=
  h.carried (setOutcome_doses h.doses) (by simp) (by simp) (by simp)

theorem DoseGround.ended (h : DoseGround s) : DoseGround (endingActions s) :=
  ⟨endingActions_tablesOk h.tables, endingActions_headOk h.head, endingActions_doses h.doses⟩

/-! ### Page records -/

theorem removeHead_doses (h : DosesOk s) : DosesOk (removeHead s) :=
  h.same (by simp) (by simp) (by simp) (by simp) (by simp)

theorem refuse_doses {p : Producer} {r : Record} {code : RefusalCode} (h : DosesOk s) : DosesOk (refuse p r code s) :=
  h.same (by simp) (by simp) (by simp) (by simp) (by simp)

/-- A page taken by a PHEAD that passed its checks fits the head: its margin leaves the whole image in the cell, no wider
than the head (R40, R43). -/
theorem newContext_fits {p : List Byte} {f : PheadFields} {l : Layout} (hf : readPhead p = some f)
    (hw : l.wc ≤ Config.emitters) (cell : Nat) (align : Alignment) : PageFits (newContext cell f l align) := by
  obtain ⟨-, -, ok, t, -, rfl⟩ := readPhead_eq_some.mp hf
  obtain ⟨-, -, -, hd, -, -⟩ := (pheadFieldsOk_iff _ _ _ _ _).mp ok
  intro ml hm
  have fits := margin_add_le hm
  rcases hd with hd | hd
  · simp only [hd, Nat.div_one] at fits
    simp only [newContext, hd, OfNat.one_ne_ofNat, if_false]
    omega
  · simp only [hd] at fits
    simp only [newContext, hd, if_true]
    omega

theorem takePhead_doses (h : DoseGround s) (he : takePhead s = some t) : DosesOk t := by
  unfold takePhead at he
  (repeat' split at he) <;> cases he
  · exact refuse_doses h.doses
  · exact refuse_doses h.doses
  · exact refuse_doses h.doses
  · rename_i f hf _ cell _
    have assigned := assignCell_doses (cell := cell) (key := f.key) h.doses
    obtain ⟨lines, pages, orphan⟩ := assigned.store
    have fits := newContext_fits hf h.lineEnv.wc_le cell s.profile.alignment
    have added : ∀ st, DosesOk ((assignCell cell f.key s).setIntake { (assignCell cell f.key s).intake with
        contexts := (assignCell cell f.key s).intake.contexts ++ [newContext cell f s.layout s.profile.alignment]
        state := st }) := fun st => by
      refine assigned.setIntake ⟨lines, fun c hc => ?_, orphan⟩
      rcases List.mem_append.mp hc with hc | hc
      · exact pages c hc
      · exact List.mem_singleton.mp hc ▸ fits
    exact removeHead_doses (admit_doses (added _))

theorem examinePhead_doses (h : DosesOk s) (he : examinePhead s = some t) : DosesOk t := by
  unfold examinePhead at he
  (repeat' split at he) <;> cases he
  · exact refuse_doses h
  · exact refuse_doses h
  · exact (endOpenPage_doses h).same rfl rfl rfl rfl rfl

theorem examinePband_doses (h : DosesOk s) (he : examinePband s = some t) : DosesOk t := by
  unfold examinePband beginBand at he
  (repeat' split at he) <;> cases he <;> exact h.same (by simp) (by simp) (by simp) (by simp) (by simp)

theorem examinePend_doses (h : DosesOk s) (he : examinePend s = some t) : DosesOk t := by
  unfold examinePend at he
  (repeat' split at he) <;> cases he
  · exact refuse_doses h
  · exact removeHead_doses (endPage_doses h)
  · exact removeHead_doses (h.setIntake h.store)
  · exact refuse_doses h

/-! ### Lines -/

theorem bandLineGrays_length_le (w depth : Nat) (p : List Byte) (i : Nat) : (bandLineGrays w depth p i).length ≤ w := by
  unfold bandLineGrays expandLine
  split
  · rename_i hd
    simp [bytesPerLine, hd]
  · simp

/-- A consumed line holds at most W gray values (R46, R47). -/
theorem bandStepGrays_length_le {st : BandStep} {fill : Nat} {c : Context} {b : Band} {p : List Byte} {g : List Nat}
    (h : bandStepGrays st fill c b p = some g) : g.length ≤ c.w := by
  cases st <;> simp only [bandStepGrays, Option.some.injEq, reduceCtorEq] at h <;> subst h
  · simp
  · exact bandLineGrays_length_le _ _ _ _

theorem decimateLines_length_le (top bottom : List Nat) : (decimateLines top bottom).length ≤ bottom.length / 2 := by
  induction top, bottom using decimateLines.induct with
  | case1 a b top c e bottom ih =>
    simp only [decimateLines, List.length_cons]
    omega
  | case2 top bottom short => simp [decimateLines]

/-- A line that leaves decimation is as wide as the page's decimated width at most (R50 to R52). -/
theorem decimateStep_length_le {c : Context} {j k : Nat} {g line : List Nat} (hg : g.length ≤ c.w)
    (h : (decimateStep c j g).2 = some (k, line)) : line.length ≤ if c.d = 2 then c.w / 2 else c.w := by
  unfold decimateStep at h
  (repeat' split at h) <;> cases h
  · rename_i hd _ _ top _
    have := decimateLines_length_le top g
    rw [if_pos hd]
    omega
  · rwa [if_neg ‹_›]

/-- A placed line of a page that fits the head is no longer than the head (R54). -/
theorem composeLine_length_le {wc fill : Nat} {c : Context} {line : List Nat} (hw : wc ≤ Config.emitters)
    (hc : PageFits c) (hl : line.length ≤ if c.d = 2 then c.w / 2 else c.w) :
    (composeLine wc fill c.hOff line).length ≤ Config.emitters := by
  cases ho : c.hOff with
  | margin ml =>
    have fits := hc ml ho
    simp only [composeLine, List.length_append, List.length_replicate]
    omega
  | skip sx =>
    simp only [composeLine, List.length_take]
    omega

/-- A source line gives a placed line no longer than the head (R54). -/
theorem bandStepPage_placed {l : Layout} {fill : Nat} {c : Context} {grays : Option (List Nat)} {line : List Nat}
    (hw : l.wc ≤ Config.emitters) (hc : PageFits c) (hg : ∀ g, grays = some g → g.length ≤ c.w)
    (h : (bandStepPage l fill c grays).2 = some line) : line.length ≤ Config.emitters := by
  cases grays with
  | none => cases h
  | some g =>
    simp only [bandStepPage] at h
    unfold placedFrom at h
    (repeat' split at h) <;> cases h
    exact composeLine_length_le hw hc (decimateStep_length_le (hg g rfl) ‹_›)

theorem decimateStep_fits {c : Context} {j : Nat} {g : List Nat} (h : PageFits c) : PageFits (decimateStep c j g).1 := by
  unfold decimateStep
  (repeat' split) <;> exact h.congr rfl rfl rfl

theorem bandStepPage_fits {l : Layout} {fill : Nat} {c : Context} {grays : Option (List Nat)} (h : PageFits c) :
    PageFits (bandStepPage l fill c grays).1 := by
  cases grays with
  | none => exact h
  | some g => exact (decimateStep_fits (j := c.e) (g := g) h).congr rfl rfl rfl

theorem stepFlags_fits {i : Intake} {st : BandStep} {c : Context} (h : PageFits c) : PageFits (stepFlags i st c) := by
  unfold stepFlags
  split
  · exact h
  · exact h.addFlags

theorem takeBandLine_doses (h : DoseGround s) (he : takeBandLine s = some t) : DosesOk t := by
  have advanced : ∀ {b n u}, DosesOk u → DosesOk (advanceBand b n u) := fun hu =>
    hu.same (by simp) (by simp) (by simp) (by simp) (by simp)
  unfold takeBandLine at he
  split at he
  · rename_i r b c _ _ hc
    have page := page_fits h.doses.store hc
    have after : PageFits (stepFlags s.intake (bandStep c b) (bandStepPage s.layout s.profile.fillGray c
        (bandStepGrays (bandStep c b) s.profile.fillGray c b r.payload)).1) := stepFlags_fits (bandStepPage_fits page)
    unfold consumeLine at he
    dsimp only at he
    (repeat' split at he) <;> cases he
    · exact advanced (h.doses.setIntake (setPage_store h.doses.store after))
    · rename_i line hline _
      exact advanced (appendLine_doses h.doses h.lineEnv after
        (bandStepPage_placed h.lineEnv.wc_le page (fun _ => bandStepGrays_length_le) hline))
  · cases he

/-- A line of fill gray is as wide as the cell (R54). -/
theorem appendFill_doses {c : Context} (h : DoseGround s) (hc : s.intake.page = some c) : DosesOk (appendFill c s) :=
  appendLine_doses h.doses h.lineEnv (page_fits h.doses.store hc) (by simpa using h.lineEnv.wc_le)

theorem appendTopMargin_doses (h : DoseGround s) : DosesOk (appendTopMargin s) := by
  unfold appendTopMargin
  split
  · exact h.doses
  · rename_i c hc
    have filled := appendFill_doses h hc
    dsimp only
    (repeat' split)
    · exact filled.same rfl rfl rfl rfl rfl
    · exact filled
    · exact h.doses

theorem appendBottomFill_doses (h : DoseGround s) : DosesOk (appendBottomFill s) := by
  unfold appendBottomFill
  split
  · exact h.doses
  · rename_i c hc
    have filled := appendFill_doses h hc
    dsimp only
    (repeat' split)
    · exact filled.same rfl rfl rfl rfl rfl
    · exact filled
    · exact h.doses

/-! ### Fiche and table records -/

/-- The cells of a new map have no dose (R3, R103). -/
theorem buildMap_fits (l : Layout) : ∀ c ∈ buildMap l, CellFits c := by
  intro c hc
  obtain ⟨i, -, rfl⟩ := List.mem_map.mp hc
  exact ⟨Nat.zero_le _, Nat.zero_le _⟩

theorem offerFopen_doses (h : DosesOk s) (he : offerFopen s = some t) : DosesOk t := by
  obtain ⟨r, code, rfl⟩ | ⟨r, f, rfl, -, -⟩ := offerFopen_cases he
  · exact refuse_doses h
  · have opened : DosesOk (s.setJob {
        state := .opening, fiche := some (newFiche r f s.tables), fopenedDue := false, onStop := none }) :=
      h.setJob fun g hg c hc => by cases hg; exact buildMap_fits _ c hc
    exact opened.same (by simp [takeFopen]) (by simp [takeFopen]) (by simp [takeFopen]) (by simp [takeFopen])
      (by simp [takeFopen])

theorem offerFclose_doses (h : DoseGround s) (he : offerFclose s = some t) : DosesOk t := by
  have closing : ∀ u, DoseGround u → DosesOk (jobTests (removeHead (setJobState .closing (endOpenPage u)))) := by
    intro u hu
    have closed : DosesOk (setJobState .closing (endOpenPage u)) := setJobState_doses (endOpenPage_doses hu.doses)
    exact (hu.carried (removeHead_doses closed) (by simp) (by simp) (by simp)).tested
  unfold offerFclose at he
  (repeat' split at he) <;> cases he
  · exact refuse_doses h.doses
  · unfold takeFclose
    split
    · exact closing s h
    · rename_i f hf
      exact closing _ (h.carried (h.doses.setFiche hf rfl) (by simp) (by simp) (by simp))

theorem tableRecords_doses (h : DosesOk s) (he : offerTwrite s = some t ∨ offerTread s = some t ∨
    offerQstat s = some t) : DosesOk t := by
  unfold offerTwrite offerTread offerQstat clearOption at he
  rcases he with he | he | he <;> (repeat' split at he) <;> cases he <;>
    exact h.same (by simp) (by simp) (by simp) (by simp) (by simp)

/-! ### Conversions, timers and line ends -/

theorem acceptConversion_doses {raw : Nat} (h : DoseGround s) (hr : raw ≤ 65535)
    (he : acceptConversion raw s = some t) : DosesOk t := by
  have doses : DosesOk (takeConversion raw s) := takeConversion_doses h.doses
  unfold acceptConversion at he
  dsimp only at he
  (repeat' split at he) <;> cases he
  · have taken : DoseGround (takeConversion raw s) :=
      ⟨h.tables.same (by simp) (by simp), takeConversion_headOk h.head h.tables hr ‹_›, doses⟩
    exact taken.tested
  · exact doses

theorem expireWarm_doses (h : DoseGround s) (he : expireWarm s = some t) : DosesOk t := by
  unfold expireWarm at he
  split at he <;> cases he
  have parked : DoseGround (parkHead s) :=
    ⟨h.tables.same rfl rfl, parkHead_headOk' h.head, h.doses.same rfl rfl rfl rfl rfl⟩
  exact DoseGround.tested ⟨takeHeadNotReady_tablesOk parked.tables, takeHeadNotReady_headOk parked.head,
    takeHeadNotReady_doses parked.doses⟩

theorem endImageLine_doses (h : DoseGround s) (he : endImageLine s = some t) : DosesOk t := by
  unfold endImageLine at he
  split at he <;> cases he
  exact (h.carried (imageLineEnd_doses h.doses h.lineEnv ‹_› ‹_›) (by simp) (by simp) (by simp)).tested

theorem endFloodLine_doses (h : DoseGround s) (he : endFloodLine s = some t) : DosesOk t := by
  unfold endFloodLine at he
  split at he <;> cases he
  exact (h.carried (floodLineEnd_doses h.doses h.lineEnv ‹_›) (by simp) (by simp) (by simp)).tested

theorem expireHold_doses (h : DoseGround s) (he : expireHold s = some t) : DosesOk t := by
  unfold expireHold at he
  split at he <;> cases he
  exact voidFrame_doses h.doses h.lineEnv

/-! ### Placed reports and replies -/

theorem placeWaiting_doses (h : DoseGround s) (he : placeWaiting s = some t) : DosesOk t := by
  unfold placeWaiting at he
  (repeat' split at he) <;> cases he
  rename_i p r rest _ _
  have placed : DoseGround (s.setLink { s.link with slots := rest, reports := s.link.reports ++ [r] }) :=
    h.same rfl rfl rfl rfl rfl rfl rfl
  cases p with
  | engine =>
    simp only [producerProceeds]
    split
    · exact placed.released.tested
    · exact placed.tested
  | job => exact placed.tested
  | tables => exact placed.doses
  | status => exact placed.doses
  | link => exact placed.doses
  | priority => exact placed.doses

theorem takeDone_doses {n : CommandNumber} (h : DoseGround s) (he : takeDone n s = some t) : DosesOk t := by
  unfold takeDone at he
  (repeat' split at he) <;> cases he
  exact DoseGround.tested ⟨motionDone_tablesOk h.tables, motionDone_headOk h.head, motionDone_doses h.doses h.lineEnv⟩

theorem DoseGround.faulted {c : TransportCode} {f : InFlight} (h : DoseGround s) : DoseGround (transportFault c f s) :=
  ⟨transportFault_tablesOk h.tables, transportFault_headOk h.head, transportFault_doses h.doses⟩

theorem takeFault_doses {n : CommandNumber} {code : ReplyCode} (h : DoseGround s) (he : takeFault n code s = some t) :
    DosesOk t := by
  unfold takeFault at he
  (repeat' split at he) <;> cases he
  · exact h.faulted.tested
  · exact h.faulted.tested
  · exact DoseGround.tested ⟨loadNoStock_tablesOk h.tables, loadNoStock_headOk h.head, loadNoStock_doses h.doses⟩

theorem takeTimeout_doses (h : DoseGround s) (he : takeTimeout s = some t) : DosesOk t := by
  unfold takeTimeout at he
  split at he <;> cases he
  exact h.faulted.tested

theorem takeLine_doses {l : List Byte} (h : DoseGround s) (he : takeLine l s = some t) : DosesOk t := by
  unfold takeLine at he
  split at he
  · cases he
  · exact takeDone_doses h he
  · exact takeFault_doses h he

/-! ### Link loss, ABORT and RESET -/

theorem takeAbort_doses {tag : Tag} {e : LinkErrReport} (h : DoseGround s) : DosesOk (takeAbort tag e s) := by
  have answered : ∀ r, DoseGround (composeSlot .priority r s) := fun r =>
    h.same (by simp) (by simp) (by simp) (by simp) (by simp) (by simp) (by simp)
  unfold takeAbort
  dsimp only
  (repeat' split)
  · have flushed := (answered (.aborted { tag := tag, result := abortResult s, seq := s.ficheSeq })).withOutcome
      (o := .aborted)
    exact ((flushed.same (t := flushInbound _) (by simp) (by simp) (by simp) (by simp) (by simp) (by simp)
      (by simp)).ended).tested
  · exact (answered _).doses
  · exact h.doses.same (by simp) (by simp) (by simp) (by simp) (by simp)

theorem DoseGround.slotCleared (h : DoseGround s) : DoseGround (engineSlotCleared s) := by
  unfold engineSlotCleared
  split
  · exact h.released
  · exact h

theorem DoseGround.slotLost (h : DoseGround s) : DoseGround (engineSlotLost s) := by
  unfold engineSlotLost
  split
  · exact h.carried (releaseOnly_doses h.doses) (by simp) (by simp) (by simp)
  · exact h

theorem DoseGround.linkReset {opt : ResetOption} {tag : Tag} (h : DoseGround s) : DoseGround (resetLink opt tag s) :=
  h.same (by simp [resetLink]) (by simp [resetLink]) (by simp [resetLink]) (by simp [resetLink]) (by simp [resetLink])
    (by simp [resetLink]) (by simp [resetLink])

/-- The alert states CLEAR and no request pending (R135, R156). -/
theorem DoseGround.cleared (h : DoseGround s) : DoseGround (discardPending (clearAlerts s)) := by
  have clear : DoseGround (clearAlerts s) :=
    ⟨h.tables.same rfl rfl, clearAlerts_headOk h.head, h.doses.same rfl rfl rfl rfl rfl⟩
  exact clear.same (by simp) (by simp) (by simp) (by simp) (by simp) (by simp) (by simp)

theorem DoseGround.intakeCleared (h : DoseGround s) : DoseGround (clearIntake s) :=
  h.carried (clearIntake_doses h.doses) (by simp) (by simp) (by simp)

theorem DoseGround.jobReset {again : Bool} (h : DoseGround s) : DoseGround (softResetJob again s) := by
  have homed : DoseGround (setJobState .ending s) :=
    h.carried (setJobState_doses h.doses) (by simp) (by simp) (by simp)
  unfold softResetJob
  (repeat' split) <;> first
    | exact h
    | exact h.withOutcome.ended
    | exact h.carried (requestEject_doses h.doses) (by simp) (by simp) (by simp)
    | exact homed.same (by simp) (by simp) (by simp) (by simp) (by simp) (by simp) (by simp)

theorem takeSoftReset_doses {tag : Tag} (h : DoseGround s) : DosesOk (takeSoftReset tag s) :=
  h.linkReset.slotCleared.proceeded.cleared.intakeCleared.jobReset.tested

theorem releasePins_pins (s : State) : (releasePins s).tables.pins = none := by
  unfold releasePins
  split
  · assumption
  · rfl

/-- The fiche record discarded with the pins released: the clearing that waits for the engine's stop finds none (R32,
R179). -/
theorem DoseGround.ficheDiscarded (h : DoseGround s) : DoseGround (discardFiche (releasePins s)) := by
  have doses : DosesOk (releasePins s) := h.doses.same (by simp) (by simp) (by simp) (by simp) (by simp)
  exact ⟨{ releasePins_tablesOk h.tables with clearing_unpinned := fun _ => releasePins_pins s },
    (releasePins_headOk h.head).same rfl rfl, doses.setJob fun _ hf => nomatch hf⟩

theorem takeFullReset_doses {tag : Tag} (h : DoseGround s) : DosesOk (takeFullReset tag s) := by
  have cleared := h.linkReset (opt := .full) (tag := tag) |>.slotLost.cleared.ficheDiscarded.intakeCleared
  exact (cleared.carried (stopEngine_doses cleared.doses) (by simp) (by simp) (by simp)).tested

theorem takeFrame_doses {bytes : List Byte} (h : DoseGround s) : DosesOk (takeFrame bytes s) := by
  have dropped : ∀ e credit, DosesOk (dropFrame e credit s) := fun _ _ =>
    h.doses.same (by simp) (by simp) (by simp) (by simp) (by simp)
  unfold takeFrame
  split
  · exact dropped _ _
  · unfold takeRecord
    split
    · exact takeAbort_doses h
    · split
      · exact takeFullReset_doses h
      · exact takeSoftReset_doses h
    all_goals
      (repeat' split) <;> first
        | exact dropped _ _
        | exact h.doses.same rfl rfl rfl rfl rfl

theorem linkLost_doses {cause : LossCause} (h : DoseGround s) :
    DosesOk (jobTests (takeLinkLoss (jobProceeds (engineSlotCleared (linkDown cause s))))) := by
  have down : DoseGround (linkDown cause s) := h.same rfl rfl rfl rfl rfl rfl rfl
  have proceeded := down.slotCleared.proceeded
  unfold takeLinkLoss
  (repeat' split) <;> first
    | exact proceeded.tested
    | exact proceeded.withOutcome.ended.tested

/-! ### Every command -/

theorem linkFinish_doses (s0 u : State) (h : DosesOk u) : DosesOk (linkFinish s0 u) :=
  h.same (by simp) (by simp) (by simp) (by simp) (by simp)

theorem exec_doses {c : Instr} (h : DoseGround s) (he : exec c s = .next t) : DosesOk t := by
  have concluded : ∀ {after}, (∀ u, after = some u → DosesOk u) → conclude s after = .next t → DosesOk t :=
    conclude_keeps linkFinish_doses h.doses
  cases c with
  | powerOn => cases he; exact dosesOk_reset.same rfl rfl rfl rfl rfl
  | signalDetectRising =>
    simp only [exec, execSignalDetectRising] at he
    split at he <;> cases he <;> exact h.doses.same rfl rfl rfl rfl rfl
  | alignment =>
    have aligned : DosesOk (s.setLink { s.link with
        state := .up, reports := [.hello (helloOf s)], windowOpen := true }) := h.doses.same rfl rfl rfl rfl rfl
    exact linkEvent_keeps linkFinish_doses h.doses aligned he
  | lossOfSignal cause =>
    simp only [exec, execLossOfSignal] at he
    split at he <;> cases he
    · exact h.doses
    · exact linkLost_doses h
  | frameReceived bytes => exact linkEvent_keeps linkFinish_doses h.doses (takeFrame_doses h) he
  | frameEndedByStartDelimiter bytes =>
    have dropped : DosesOk (dropFrame (linkErrOf .linkCrc bytes) true s) :=
      h.doses.same (by simp) (by simp) (by simp) (by simp) (by simp)
    exact linkEvent_keeps linkFinish_doses h.doses dropped he
  | transmissionEnds =>
    simp only [exec, execTransmissionEnds] at he
    split at he <;> cases he
    · exact h.doses
    · exact linkFinish_doses _ _ (h.doses.same rfl rfl rfl rfl rfl)
  | reportPlaced => exact concluded (fun _ => placeWaiting_doses h) he
  | fopen => exact concluded (fun _ => offerFopen_doses h.doses) he
  | fclose => exact concluded (fun _ => offerFclose_doses h) he
  | phead => exact concluded (fun _ => examinePhead_doses h.doses) he
  | pheadTake => exact concluded (fun _ => takePhead_doses h) he
  | pband => exact concluded (fun _ => examinePband_doses h.doses) he
  | bandLine => exact concluded (fun _ => takeBandLine_doses h) he
  | pend => exact concluded (fun _ => examinePend_doses h.doses) he
  | topMarginLine => cases he; exact appendTopMargin_doses h
  | fillLine => cases he; exact appendBottomFill_doses h
  | twrite => exact concluded (fun _ hu => tableRecords_doses h.doses (.inl hu)) he
  | tread => exact concluded (fun _ hu => tableRecords_doses h.doses (.inr (.inl hu))) he
  | qstat => exact concluded (fun _ hu => tableRecords_doses h.doses (.inr (.inr hu))) he
  | abort tag => exact linkEvent_keeps linkFinish_doses h.doses (takeAbort_doses h) he
  | resetFull tag => exact linkEvent_keeps linkFinish_doses h.doses (takeFullReset_doses h) he
  | resetSoft tag => exact linkEvent_keeps linkFinish_doses h.doses (takeSoftReset_doses h) he
  | done n => exact concluded (fun _ => takeDone_doses h) he
  | fault n code => exact concluded (fun _ => takeFault_doses h) he
  | motionTimeout => exact concluded (fun _ => takeTimeout_doses h) he
  | conversion raw => exact concluded (fun _ => acceptConversion_doses h (Nat.lt_succ_iff.mp raw.isLt)) he
  | warmTimerExpiry => exact concluded (fun _ => expireWarm_doses h) he
  | parkTimerExpiry =>
    simp only [exec, execParkTimerExpiry] at he
    split at he <;> cases he <;> exact h.doses.same rfl rfl rfl rfl rfl
  | lineEnd => exact concluded (fun _ => endImageLine_doses h) he
  | floodLineEnd => exact concluded (fun _ => endFloodLine_doses h) he
  | holdTimerExpiry => exact concluded (fun _ => expireHold_doses h) he
  | lastCharacterSent =>
    simp only [exec, execLastCharacterSent] at he
    split at he <;> cases he <;> exact h.doses.same rfl rfl rfl rfl rfl
  | receivedLineIgnored line => exact concluded (fun _ => takeLine_doses h) he

/-- Settles O50: every command keeps the doses on tables and a head in order, and the bounds follow by the lines. -/
theorem dosesStayWithinTheirBounds : Obligations.DosesStayWithinTheirBounds := by
  refine ⟨fun s t ht hh h hs => ?_, lineDosesAreBounded, frameAndFicheDosesAreBounded⟩
  obtain rfl | ⟨c, rest, he⟩ := step_cases hs
  · exact h
  · have ground : DoseGround s := ⟨ht, hh, h⟩
    exact exec_doses (ground.same (t := { s with pending := rest }) rfl rfl rfl rfl rfl rfl rfl) he

end Sys2Proof.Machine
end

section
/-!
PROOFS. O3: every command keeps the head monitor's ranges. Only a FOPEN's pins, a TWRITE, a conversion, a RESET FULL and
the return to IDLE reach the tables or the head; every other event hands them on as they stand.
-/

namespace Sys2Proof.Machine

variable {s t : State}

/-! ### What `HeadOk` reads of the tables -/

/-- Of the tables `HeadOk` reads the pins and the pinned profile alone. -/
theorem HeadOk.of_pins (h : HeadOk s) (hh : t.head = s.head) (hp : t.tables.pins = s.tables.pins)
    (hf : t.profile = s.profile) : HeadOk t := by
  obtain ⟨h1, h2, h3, h4, h5, h6, h7, h8, h9, h10, h11, h12⟩ := h
  exact ⟨by rwa [hh], by rwa [hh], by rwa [hh], by rwa [hh], by rwa [hh], by rwa [hh], by rwa [hh], by rwa [hh],
    by rwa [hh], by rwa [hh], by rwa [hh, hp, hf], by rwa [hh, hp]⟩

/-- A valid profile's fields are in range, where the tables are in order (R158, R163). -/
theorem profileEntry_ok (ht : TablesOk s) {n : Nat} (hv : (s.tables.profileEntry n).valid = true) :
    (s.tables.profileEntry n).fields.ok = true := by
  unfold Tables.profileEntry at hv ⊢
  rw [List.getD_eq_getElem?_getD] at hv ⊢
  cases hx : s.tables.profiles[n]? with
  | none => simp [hx] at hv
  | some e =>
    have ranges := ht.profiles_ok e (List.mem_of_getElem? hx)
    simp only [hx, Option.getD_some] at hv ⊢
    simpa [hv] using ranges

/-- An openable profile asks for at least one average in range before READY (R128, R163). -/
theorem openable_warmCount_pos (ht : TablesOk s) {n : Nat} (ho : s.tables.openable n = true) :
    1 ≤ (s.tables.profileEntry n).fields.warmCount := by
  simp only [Tables.openable, Bool.and_eq_true] at ho
  obtain ⟨⟨valid, -⟩, -⟩ := ho
  have ranges := profileEntry_ok ht valid
  simp only [Profile.ok, Bool.and_eq_true, decide_eq_true_eq] at ranges
  omega

/-- What finds the head and the tables as they were may be followed by the job controller's tests. -/
theorem HeadOk.tested (h : HeadOk s) (hh : t.head = s.head) (ht : t.tables = s.tables) : HeadOk (jobTests t) :=
  jobTests_headOk (h.same hh ht)

/-! ### Records -/

/-- The page records and the TREAD reach neither the head monitor nor the tables. -/
theorem pageRecords_head_tables (he : examinePhead s = some t ∨ takePhead s = some t ∨ examinePband s = some t ∨
    takeBandLine s = some t ∨ examinePend s = some t ∨ offerTread s = some t) :
    t.head = s.head ∧ t.tables = s.tables := by
  rcases he with he | he | he | he | he | he
  · unfold examinePhead checkPhead at he
    (repeat' split at he) <;> cases he <;> simp
  · unfold takePhead takePage at he
    (repeat' split at he) <;> cases he <;> simp
  · unfold examinePband beginBand at he
    (repeat' split at he) <;> cases he <;> simp
  · unfold takeBandLine consumeLine at he
    dsimp only at he
    (repeat' split at he) <;> cases he <;> simp
  · unfold examinePend at he
    (repeat' split at he) <;> cases he <;> simp
  · unfold offerTread at he
    (repeat' split at he) <;> cases he <;> simp

theorem pageRecords_headOk (h : HeadOk s) (he : examinePhead s = some t ∨ takePhead s = some t ∨
    examinePband s = some t ∨ takeBandLine s = some t ∨ examinePend s = some t ∨ offerTread s = some t) : HeadOk t :=
  h.same (pageRecords_head_tables he).1 (pageRecords_head_tables he).2

theorem appendTopMargin_headOk (h : HeadOk s) : HeadOk (appendTopMargin s) := by
  unfold appendTopMargin appendFill
  (repeat' split) <;> exact h.same (by simp) (by simp)

theorem appendBottomFill_headOk (h : HeadOk s) : HeadOk (appendBottomFill s) := by
  unfold appendBottomFill appendFill
  (repeat' split) <;> exact h.same (by simp) (by simp)

/-- A FOPEN is taken only under an openable profile (R11). -/
theorem judgeFopen_openable {r : Record} {f : FopenFields} (h : judgeFopen r s = .inr f) :
    s.tables.openable f.profile = true := by
  unfold judgeFopen at h
  (repeat' split at h) <;> cases h
  exact Bool.of_not_eq_false ‹_›

/-- The pins of an openable profile, told to the head monitor, and READY asked for (R12, R113, R126). -/
theorem takeFopen_headOk {r : Record} {f : FopenFields} (h : HeadOk s) (ht : TablesOk s)
    (ho : s.tables.openable f.profile = true) : HeadOk (takeFopen r f s) := by
  unfold takeFopen
  dsimp only
  generalize hu : requestMotion .load ((s.setJob _).setTables _) = u
  have head : u.head = s.head := by simp [← hu]
  have tables : u.tables = { s.tables with pins := some (pinsOf f.profile s.tables) } := by simp [← hu]
  have warm : 1 ≤ u.profile.warmCount := by
    simp only [State.profile, tables]
    exact openable_warmCount_pos ht ho
  have warmPinned : 1 ≤ (headPinned u).profile.warmCount := by
    rwa [State.profile_eq (t := headPinned u) (s := u) (by simp)]
  exact (askReady_headOk (headPinned_headOk h head warm) warmPinned).same (by simp) (by simp)

theorem offerFopen_headOk (h : HeadOk s) (ht : TablesOk s) (he : offerFopen s = some t) : HeadOk t := by
  unfold offerFopen at he
  (repeat' split at he) <;> cases he
  · exact h.same (by simp) (by simp)
  · exact takeFopen_headOk h ht (judgeFopen_openable ‹_›)

theorem offerFclose_headOk (h : HeadOk s) (he : offerFclose s = some t) : HeadOk t := by
  unfold offerFclose at he
  (repeat' split at he) <;> cases he
  · exact h.same (by simp) (by simp)
  · unfold takeFclose
    split <;> exact h.tested (by simp) (by simp)

/-- A taken TWRITE leaves the pins and the pinned profile (R167, R174). -/
theorem judgeTwrite_profile {p : List Byte} {tb : Tables} {w : WrittenEntry} {sel : TableSel} {n : Nat}
    (hj : judgeTwrite p s.tables = .inr (tb, w, sel, n)) (ht : t.tables = tb) :
    t.tables.pins = s.tables.pins ∧ t.profile = s.profile := by
  have pins : tb.pins = s.tables.pins := (writeEntry_other (judgeTwrite_taken hj).2.2).1
  refine ⟨by rw [ht, pins], ?_⟩
  unfold State.profile
  rw [ht, pins]
  cases hp : s.tables.pins with
  | none => rfl
  | some q =>
    have entry := (judgeTwrite_pinned hj hp).2.1
    simp only [entry]

theorem offerTwrite_headOk (h : HeadOk s) (he : offerTwrite s = some t) : HeadOk t := by
  unfold offerTwrite at he
  (repeat' split at he) <;> cases he
  · exact h.same (by simp) (by simp)
  · rename_i tb w sel n hj
    obtain ⟨pins, profile⟩ := judgeTwrite_profile (t := s.setTables tb) hj rfl
    exact (h.of_pins (t := s.setTables tb) rfl pins profile).same (by simp) (by simp)

/-- The clear option sets both alert states to CLEAR (R120). -/
theorem offerQstat_headOk (h : HeadOk s) (he : offerQstat s = some t) : HeadOk t := by
  unfold offerQstat clearOption at he
  (repeat' split at he) <;> cases he
  · exact (clearAlerts_headOk h).same (by simp [clearAlerts]) (by simp)
  · exact h.same (by simp) (by simp)

/-! ### Conversions, timers and line ends -/

/-- The job controller's tests follow the conversion that makes the head READY (R128). -/
theorem acceptConversion_headOk {raw : Nat} (h : HeadOk s) (ht : TablesOk s) (hr : raw ≤ 65535)
    (he : acceptConversion raw s = some t) : HeadOk t := by
  unfold acceptConversion at he
  dsimp only at he
  split at he
  · cases he
  · have taken : HeadOk (takeConversion raw s) := takeConversion_headOk h ht hr ‹_›
    split at he <;> cases he
    · exact jobTests_headOk taken
    · exact taken

theorem expireWarm_headOk (h : HeadOk s) (he : expireWarm s = some t) : HeadOk t := by
  unfold expireWarm at he
  split at he <;> cases he
  exact jobTests_headOk (takeHeadNotReady_headOk (parkHead_headOk' h))

theorem endImageLine_headOk (h : HeadOk s) (he : endImageLine s = some t) : HeadOk t := by
  unfold endImageLine at he
  split at he <;> cases he
  exact h.tested (by simp) (by simp)

theorem endFloodLine_headOk (h : HeadOk s) (he : endFloodLine s = some t) : HeadOk t := by
  unfold endFloodLine at he
  split at he <;> cases he
  exact h.tested (by simp) (by simp)

theorem expireHold_headOk (h : HeadOk s) (he : expireHold s = some t) : HeadOk t := by
  unfold expireHold at he
  split at he <;> cases he
  exact h.same (by simp) (by simp)

/-! ### Placed reports and replies -/

theorem placeWaiting_headOk (h : HeadOk s) (he : placeWaiting s = some t) : HeadOk t := by
  unfold placeWaiting at he
  (repeat' split at he) <;> cases he
  rename_i p r rest _ _
  cases p with
  | engine =>
    simp only [producerProceeds]
    split <;> exact h.tested (by simp) (by simp)
  | job => exact h.tested rfl rfl
  | tables => exact h.same rfl rfl
  | status => exact h.same rfl rfl
  | link => exact h.same rfl rfl
  | priority => exact h.same rfl rfl

theorem takeDone_headOk {n : CommandNumber} (h : HeadOk s) (he : takeDone n s = some t) : HeadOk t := by
  unfold takeDone at he
  (repeat' split at he) <;> cases he
  exact jobTests_headOk (motionDone_headOk h)

theorem takeFault_headOk {n : CommandNumber} {code : ReplyCode} (h : HeadOk s) (he : takeFault n code s = some t) :
    HeadOk t := by
  unfold takeFault at he
  (repeat' split at he) <;> cases he
  · exact jobTests_headOk (transportFault_headOk h)
  · exact jobTests_headOk (transportFault_headOk h)
  · exact jobTests_headOk (loadNoStock_headOk h)

theorem takeTimeout_headOk (h : HeadOk s) (he : takeTimeout s = some t) : HeadOk t := by
  unfold takeTimeout at he
  split at he <;> cases he
  exact jobTests_headOk (transportFault_headOk h)

theorem takeLine_headOk {l : List Byte} (h : HeadOk s) (he : takeLine l s = some t) : HeadOk t := by
  unfold takeLine at he
  split at he
  · cases he
  · exact takeDone_headOk h he
  · exact takeFault_headOk h he

/-! ### Link loss, ABORT and RESET -/

theorem takeAbort_headOk {tag : Tag} {e : LinkErrReport} (h : HeadOk s) : HeadOk (takeAbort tag e s) := by
  unfold takeAbort abortTaken
  dsimp only
  (repeat' split)
  · exact h.tested (by simp) (by simp)
  · exact h.same (by simp) (by simp)
  · exact h.same (by simp) (by simp)

theorem engineSlotCleared_headOk (h : HeadOk s) : HeadOk (engineSlotCleared s) := by
  unfold engineSlotCleared
  split <;> exact h.same (by simp) (by simp)

theorem engineSlotLost_headOk (h : HeadOk s) : HeadOk (engineSlotLost s) := by
  unfold engineSlotLost
  split <;> exact h.same (by simp) (by simp)

theorem resetLink_headOk {opt : ResetOption} {tag : Tag} (h : HeadOk s) : HeadOk (resetLink opt tag s) :=
  h.same (by simp [resetLink]) (by simp [resetLink])

theorem softResetJob_headOk {again : Bool} (h : HeadOk s) : HeadOk (softResetJob again s) := by
  unfold softResetJob
  (repeat' split) <;> exact h.same (by simp) (by simp)

/-- A RESET SOFT sets the alert states to CLEAR and leaves the rest of the head (R135). -/
theorem softResetBlocks_headOk (h : HeadOk s) : HeadOk (softResetBlocks s) :=
  softResetJob_headOk ((clearAlerts_headOk h).same (by simp) (by simp))

theorem takeSoftReset_headOk {tag : Tag} (h : HeadOk s) : HeadOk (takeSoftReset tag s) :=
  jobTests_headOk (softResetBlocks_headOk (jobProceeds_headOk (engineSlotCleared_headOk (resetLink_headOk h))))

/-- A RESET FULL clears the alert states and releases the pins (R134, R179); the head is parked at the engine's stop. -/
theorem fullResetBlocks_headOk (h : HeadOk s) : HeadOk (fullResetBlocks s) := by
  have released : HeadOk (releasePins (discardPending (clearAlerts s))) :=
    releasePins_headOk ((clearAlerts_headOk h).same (by simp) (by simp))
  exact released.same (by simp [fullResetBlocks, discardFiche]) (by simp [fullResetBlocks, discardFiche])

theorem takeFullReset_headOk {tag : Tag} (h : HeadOk s) : HeadOk (takeFullReset tag s) :=
  jobTests_headOk (fullResetBlocks_headOk (engineSlotLost_headOk (resetLink_headOk h)))

theorem takeFrame_headOk {bytes : List Byte} (h : HeadOk s) : HeadOk (takeFrame bytes s) := by
  unfold takeFrame
  split
  · exact h.same (by simp) (by simp)
  · unfold takeRecord
    split
    · exact takeAbort_headOk h
    · split
      · exact takeFullReset_headOk h
      · exact takeSoftReset_headOk h
    all_goals (repeat' split) <;> exact h.same (by simp) (by simp)

theorem linkLost_headOk {cause : LossCause} (h : HeadOk s) :
    HeadOk (jobTests (takeLinkLoss (jobProceeds (engineSlotCleared (linkDown cause s))))) := by
  have down : HeadOk (linkDown cause s) := h.same rfl rfl
  have proceeded := jobProceeds_headOk (engineSlotCleared_headOk down)
  unfold takeLinkLoss
  (repeat' split) <;> exact proceeded.tested (by simp) (by simp)

/-! ### Every command -/

theorem linkFinish_headOk (s0 u : State) (h : HeadOk u) : HeadOk (linkFinish s0 u) := h.same (by simp) (by simp)

/-- Every command keeps the head's ranges on tables in order; a FOPEN and a conversion are those that read the tables. -/
theorem exec_headOk {c : Instr} (ht : TablesOk s) (h : HeadOk s) (he : exec c s = .next t) : HeadOk t := by
  have concluded : ∀ {after}, (∀ u, after = some u → HeadOk u) → conclude s after = .next t → HeadOk t :=
    conclude_keeps linkFinish_headOk h
  cases c with
  | powerOn => cases he; exact headOk_reset.same rfl rfl
  | signalDetectRising =>
    simp only [exec, execSignalDetectRising] at he
    split at he <;> cases he <;> exact h.same rfl rfl
  | alignment =>
    have aligned : HeadOk (s.setLink { s.link with
        state := .up, reports := [.hello (helloOf s)], windowOpen := true }) := h.same rfl rfl
    exact linkEvent_keeps linkFinish_headOk h aligned he
  | lossOfSignal cause =>
    simp only [exec, execLossOfSignal] at he
    split at he <;> cases he
    · exact h
    · exact linkLost_headOk h
  | frameReceived bytes => exact linkEvent_keeps linkFinish_headOk h (takeFrame_headOk h) he
  | frameEndedByStartDelimiter bytes =>
    have dropped : HeadOk (dropFrame (linkErrOf .linkCrc bytes) true s) := h.same (by simp) (by simp)
    exact linkEvent_keeps linkFinish_headOk h dropped he
  | transmissionEnds =>
    simp only [exec, execTransmissionEnds] at he
    split at he <;> cases he <;> exact h.same (by simp) (by simp)
  | reportPlaced => exact concluded (fun _ => placeWaiting_headOk h) he
  | fopen => exact concluded (fun _ => offerFopen_headOk h ht) he
  | fclose => exact concluded (fun _ => offerFclose_headOk h) he
  | phead => exact concluded (fun _ hu => pageRecords_headOk h (by simp [hu])) he
  | pheadTake => exact concluded (fun _ hu => pageRecords_headOk h (by simp [hu])) he
  | pband => exact concluded (fun _ hu => pageRecords_headOk h (by simp [hu])) he
  | bandLine => exact concluded (fun _ hu => pageRecords_headOk h (by simp [hu])) he
  | pend => exact concluded (fun _ hu => pageRecords_headOk h (by simp [hu])) he
  | topMarginLine => cases he; exact appendTopMargin_headOk h
  | fillLine => cases he; exact appendBottomFill_headOk h
  | twrite => exact concluded (fun _ => offerTwrite_headOk h) he
  | tread => exact concluded (fun _ hu => pageRecords_headOk h (by simp [hu])) he
  | qstat => exact concluded (fun _ => offerQstat_headOk h) he
  | abort tag => exact linkEvent_keeps linkFinish_headOk h (takeAbort_headOk h) he
  | resetFull tag => exact linkEvent_keeps linkFinish_headOk h (takeFullReset_headOk h) he
  | resetSoft tag => exact linkEvent_keeps linkFinish_headOk h (takeSoftReset_headOk h) he
  | done n => exact concluded (fun _ => takeDone_headOk h) he
  | fault n code => exact concluded (fun _ => takeFault_headOk h) he
  | motionTimeout => exact concluded (fun _ => takeTimeout_headOk h) he
  | conversion raw => exact concluded (fun _ => acceptConversion_headOk h ht (Nat.lt_succ_iff.mp raw.isLt)) he
  | warmTimerExpiry => exact concluded (fun _ => expireWarm_headOk h) he
  | parkTimerExpiry =>
    simp only [exec, execParkTimerExpiry] at he
    split at he <;> cases he
    · exact parkHead_headOk' h
    · exact h
  | lineEnd => exact concluded (fun _ => endImageLine_headOk h) he
  | floodLineEnd => exact concluded (fun _ => endFloodLine_headOk h) he
  | holdTimerExpiry => exact concluded (fun _ => expireHold_headOk h) he
  | lastCharacterSent =>
    simp only [exec, execLastCharacterSent] at he
    split at he <;> cases he <;> exact h.same rfl rfl
  | receivedLineIgnored line => exact concluded (fun _ => takeLine_headOk h) he

/-- Settles O3: a step is a command on the state with the queue's rest, and every command keeps the ranges. -/
theorem headRangesAreKept : Obligations.HeadRangesAreKept := by
  intro s t ht h hs
  obtain rfl | ⟨c, rest, he⟩ := step_cases hs
  · exact h
  · exact exec_headOk (s := { s with pending := rest }) (ht.same rfl rfl) (h.same rfl rfl) he

end Sys2Proof.Machine
end

section
/-!
PROOFS. O60: what a TREAD and a QSTAT at the head of the queue are answered with.
-/

open Sys2Proof

namespace Sys2Proof.Machine

variable {s : State} {r : Record}

/-! ### TREAD (R171, R172) -/

/-- The table records are offered where the table store's slot is empty and no RESET FULL's clearing is awaited. -/
theorem tableOffered_of (hs : slotFree s .tables = true) (hw : s.job.onStop ≠ some .resetFull) :
    tableOffered s = true := by simp [tableOffered, hs, hw]

theorem exec_tread_refused (hr : headRecord .tread s = some r) (ho : tableOffered s = true)
    (hj : judgeTread r.payload = none) : exec .tread s = .next (linkFinish s (refuse .tables r .badField s)) :=
  exec_conclude (by simp [offerTread, hr, ho, hj])

theorem exec_tread_answered {sel : TableSel} {n offset : Nat} (hr : headRecord .tread s = some r)
    (ho : tableOffered s = true) (hj : judgeTread r.payload = some (sel, n, offset)) :
    exec .tread s = .next (linkFinish s (removeHead (composeSlot .tables
      (.tdata { tag := r.tag, table := sel, entry := n, contents := readContents sel n offset s.tables }) s))) :=
  exec_conclude (by simp [offerTread, hr, ho, hj])

theorem treadReadsTheEntry : Clauses.TreadReadsTheEntry := by
  intro s r hr hs hw
  have offered := tableOffered_of hs hw
  refine ⟨exec_tread_refused hr offered, fun sel n offset hj => ?_⟩
  rw [exec_tread_answered hr offered hj]
  cases sel <;> rfl

/-! ### QSTAT (R203, R204) -/

theorem exec_qstat_answered (hr : headRecord .qstat s = some r) (hs : slotFree s .status = true) :
    exec .qstat s =
      .next (linkFinish s (removeHead (clearOption r (composeSlot .status (.stat (statOf r.tag s)) s)))) :=
  exec_conclude (by simp [offerQstat, hr, hs])

/-- The clear option leaves all but the alert states and the overflow indicator (R120, R201). -/
theorem clearOption_set (hc : r.flags.getLsbD 0 = true) (s : State) : clearOption r s = { s with
    head := { s.head with overActive := false, underActive := false }
    link := { s.link with overflow := false } } := by
  rw [clearOption, Record.optionBit, if_pos hc]
  rfl

theorem clearOption_unset (hc : r.flags.getLsbD 0 = false) (s : State) : clearOption r s = s := by
  rw [clearOption, Record.optionBit, hc]
  rfl

/-- With or without a fiche record, STAT holds the values that stand (R204). -/
theorem qstatAnswersWithStat : Clauses.QstatAnswersWithStat := by
  intro s r hr hs map u
  have stat : u = composeSlot .status (.stat (statOf r.tag s)) s := by
    simp only [u, map, statOf, statCounts, statVoidCount, State.ficheSeq, cellCounts]
    cases s.job.fiche <;> rfl
  have head : u.head = s.head := by simp [stat]
  rw [exec_qstat_answered hr hs, ← stat]
  refine ⟨fun hc => by rw [clearOption_unset hc], fun hc => by rw [clearOption_set hc, head]⟩

/-- Settles O60: a TREAD is refused or answered with the entry, a QSTAT with the values from before the clear. -/
theorem queriesAreAnswered : Obligations.QueriesAreAnswered := ⟨treadReadsTheEntry, qstatAnswersWithStat⟩

end Sys2Proof.Machine
end

section
/-!
PROOFS. O4: every command keeps the card state and the command in flight in agreement. The records, the link's events and
the timers reach the transport controller by motion requests alone; the replies and the motion timeout end a command.
-/

namespace Sys2Proof.Machine

variable {s t : State}

/-! ### Operations made of motion requests -/

theorem TransportOk.requested {m : Motion} (h : TransportOk s) (ht : t.transport = s.transport) :
    TransportOk (requestMotion m t) :=
  requestMotion_ok (h.same ht)

theorem jobTests_transportOk (h : TransportOk s) : TransportOk (jobTests s) := jobTests_motion transportOk_closed h

/-- What finds the transport controller as it was may be followed by the job controller's tests. -/
theorem TransportOk.tested (h : TransportOk s) (ht : t.transport = s.transport) : TransportOk (jobTests t) :=
  jobTests_transportOk (h.same ht)

theorem release_transportOk (h : TransportOk s) : TransportOk (release s) := release_motion transportOk_closed h

/-- An ending tells the engine to stop; the card is disposed of at its stop (R24). -/
theorem endingActions_transportOk (h : TransportOk s) : TransportOk (endingActions s) :=
  endingActions_motion transportOk_closed h

/-- Of its parts the closing step alone requests a motion (R18, R20). -/
theorem jobProceeds_transportOk (h : TransportOk s) : TransportOk (jobProceeds s) := by
  have closed : TransportOk (closingStep (composeFopened s)) :=
    closingStep_motion transportOk_closed (h.same (by simp))
  exact closed.same (by simp [jobProceeds])

/-! ### Records -/

/-- A FOPEN is refused, or taken with LOAD requested (R11, R12). -/
theorem offerFopen_transportOk (h : TransportOk s) (he : offerFopen s = some t) : TransportOk t := by
  obtain ⟨r, code, rfl⟩ | ⟨r, f, rfl, -, -⟩ := offerFopen_cases he
  · exact h.same (by simp)
  · unfold takeFopen
    dsimp only
    generalize hu : requestMotion .load ((s.setJob _).setTables _) = u
    have loading : TransportOk u := hu ▸ h.requested rfl
    exact loading.same (by simp)

theorem offerFclose_transportOk (h : TransportOk s) (he : offerFclose s = some t) : TransportOk t := by
  unfold offerFclose at he
  (repeat' split at he) <;> cases he
  · exact h.same (by simp)
  · unfold takeFclose
    split <;> exact h.tested (by simp)

/-- The take of a PHEAD admits the new context where the engine is IDLE, with its MOVE (R42, R66). -/
theorem takePhead_transportOk (h : TransportOk s) (he : takePhead s = some t) : TransportOk t := by
  unfold takePhead at he
  (repeat' split at he) <;> cases he
  · exact h.same (by simp)
  · exact h.same (by simp)
  · exact h.same (by simp)
  · unfold takePage
    dsimp only
    generalize hu : (assignCell _ _ s).setIntake _ = u
    have admitted : TransportOk (admitContext u) :=
      admit_motion transportOk_closed (h.same (by simp [← hu]))
    exact admitted.same (by simp)

/-- The other records do not reach the transport controller. -/
theorem otherRecords_transport (he : examinePhead s = some t ∨ examinePband s = some t ∨ takeBandLine s = some t ∨
    examinePend s = some t ∨ offerTwrite s = some t ∨ offerTread s = some t ∨ offerQstat s = some t) :
    t.transport = s.transport := by
  rcases he with he | he | he | he | he | he | he
  · unfold examinePhead checkPhead at he
    (repeat' split at he) <;> cases he <;> simp
  · unfold examinePband beginBand at he
    (repeat' split at he) <;> cases he <;> simp
  · unfold takeBandLine consumeLine at he
    dsimp only at he
    (repeat' split at he) <;> cases he <;> simp
  · unfold examinePend at he
    (repeat' split at he) <;> cases he <;> simp
  · unfold offerTwrite at he
    (repeat' split at he) <;> cases he <;> simp
  · unfold offerTread at he
    (repeat' split at he) <;> cases he <;> simp
  · unfold offerQstat clearOption at he
    (repeat' split at he) <;> cases he <;> simp

theorem appendTopMargin_transport (s : State) : (appendTopMargin s).transport = s.transport := by
  unfold appendTopMargin appendFill
  (repeat' split) <;> simp

theorem appendBottomFill_transport (s : State) : (appendBottomFill s).transport = s.transport := by
  unfold appendBottomFill appendFill
  (repeat' split) <;> simp

/-! ### Conversions, timers and line ends -/

theorem acceptConversion_transportOk {raw : Nat} (h : TransportOk s) (he : acceptConversion raw s = some t) :
    TransportOk t := by
  unfold acceptConversion at he
  dsimp only at he
  (repeat' split at he) <;> cases he
  · exact h.tested (by simp)
  · exact h.same (by simp)

theorem expireWarm_transportOk (h : TransportOk s) (he : expireWarm s = some t) : TransportOk t := by
  unfold expireWarm at he
  split at he <;> cases he
  exact jobTests_transportOk (takeHeadNotReady_motion transportOk_closed (h.same (by simp)))

theorem endImageLine_transportOk (h : TransportOk s) (he : endImageLine s = some t) : TransportOk t := by
  unfold endImageLine at he
  split at he <;> cases he
  exact jobTests_transportOk (imageLineEnd_motion transportOk_closed h)

theorem endFloodLine_transportOk (h : TransportOk s) (he : endFloodLine s = some t) : TransportOk t := by
  unfold endFloodLine at he
  split at he <;> cases he
  exact jobTests_transportOk (floodLineEnd_motion transportOk_closed h)

theorem expireHold_transportOk (h : TransportOk s) (he : expireHold s = some t) : TransportOk t := by
  unfold expireHold at he
  split at he <;> cases he
  exact h.same (by simp)

/-! ### Placed reports -/

/-- A placed FRAME releases the engine's context (R82, R83), a report of the job controller's lets its tests go on. -/
theorem placeWaiting_transportOk (h : TransportOk s) (he : placeWaiting s = some t) : TransportOk t := by
  unfold placeWaiting at he
  (repeat' split at he) <;> cases he
  rename_i p r rest _ _
  have placed : TransportOk (s.setLink { s.link with slots := rest, reports := s.link.reports ++ [r] }) := h.same rfl
  cases p with
  | engine =>
    simp only [producerProceeds]
    split
    · exact jobTests_transportOk (release_transportOk placed)
    · exact jobTests_transportOk placed
  | job => exact jobTests_transportOk placed
  | tables => exact placed
  | status => exact placed
  | link => exact placed
  | priority => exact placed

/-! ### The end of a command, and its start -/

/-- A command ended by its DONE leaves the controller in order, whatever it was before (R140). -/
theorem takeDone_transportOk {n : CommandNumber} (he : takeDone n s = some t) : TransportOk t := by
  unfold takeDone at he
  (repeat' split at he) <;> cases he
  exact jobTests_transportOk motionDone_ok

/-- A command ended by a FAULT leaves the card in FAULT with a code, or EMPTY after NO_STOCK (R142, R143). -/
theorem takeFault_transportOk {n : CommandNumber} {code : ReplyCode} (he : takeFault n code s = some t) :
    TransportOk t := by
  unfold takeFault at he
  (repeat' split at he) <;> cases he
  · exact jobTests_transportOk (transportFault_ok (by decide))
  · exact jobTests_transportOk (transportFault_ok (by decide))
  · exact jobTests_transportOk loadNoStock_ok

theorem takeTimeout_transportOk (he : takeTimeout s = some t) : TransportOk t := by
  unfold takeTimeout at he
  split at he <;> cases he
  exact jobTests_transportOk (transportFault_ok (by decide))

theorem takeLine_transportOk {l : List Byte} (he : takeLine l s = some t) : TransportOk t := by
  unfold takeLine at he
  split at he
  · cases he
  · exact takeDone_transportOk he
  · exact takeFault_transportOk he

/-- The motion timer is started for a command in flight only (R138). -/
theorem startTimer_transportOk {k : InFlight} {ms : Nat} (h : TransportOk s) (hi : s.transport.inFlight = some k) :
    TransportOk (s.setTransport { s.transport with timer := some ms }) :=
  ⟨h.card_of_flight, h.card_at_rest, h.pending_waits, fun _ => by simp [hi], h.position_at_cell, h.fault_code⟩

/-! ### Link loss, ABORT and RESET -/

theorem engineSlotCleared_transportOk (h : TransportOk s) : TransportOk (engineSlotCleared s) := by
  unfold engineSlotCleared
  split
  · exact release_transportOk h
  · exact h

theorem engineSlotLost_transport (s : State) : (engineSlotLost s).transport = s.transport := by
  unfold engineSlotLost
  split <;> simp

theorem resetLink_transport (opt : ResetOption) (tag : Tag) (s : State) :
    (resetLink opt tag s).transport = s.transport := by simp [resetLink]

theorem takeAbort_transportOk {tag : Tag} {e : LinkErrReport} (h : TransportOk s) : TransportOk (takeAbort tag e s) := by
  unfold takeAbort abortTaken
  dsimp only
  (repeat' split)
  · exact jobTests_transportOk (endingActions_transportOk (h.same (by simp)))
  · exact h.same (by simp)
  · exact h.same (by simp)

/-- A RESET SOFT ends the fiche, requests its discarded EJECT REJECT again, or homes a FAULTED card (R33). -/
theorem softResetJob_transportOk {again : Bool} (h : TransportOk s) : TransportOk (softResetJob again s) := by
  unfold softResetJob
  (repeat' split)
  · exact h
  · exact endingActions_transportOk (h.same (by simp))
  · exact endingActions_transportOk (h.same (by simp))
  · exact endingActions_transportOk (h.same (by simp))
  · exact requestEject_motion transportOk_closed h
  · exact h
  · exact h.requested (by simp)

theorem softResetBlocks_transportOk (h : TransportOk s) : TransportOk (softResetBlocks s) := by
  have discarded : TransportOk (discardPending (clearAlerts s)) := discardPending_ok (h.same (by simp))
  exact softResetJob_transportOk (discarded.same (by simp))

theorem takeSoftReset_transportOk {tag : Tag} (h : TransportOk s) : TransportOk (takeSoftReset tag s) := by
  have reset : TransportOk (resetLink .soft tag s) := h.same (resetLink_transport ..)
  exact jobTests_transportOk (softResetBlocks_transportOk
    (jobProceeds_transportOk (engineSlotCleared_transportOk reset)))

theorem fullResetBlocks_transportOk (h : TransportOk s) : TransportOk (fullResetBlocks s) := by
  have discarded : TransportOk (discardPending (clearAlerts s)) := discardPending_ok (h.same (by simp))
  exact stopEngine_motion transportOk_closed (discarded.same (by simp [discardFiche]))

theorem takeFullReset_transportOk {tag : Tag} (h : TransportOk s) : TransportOk (takeFullReset tag s) :=
  jobTests_transportOk (fullResetBlocks_transportOk
    (h.same (by rw [engineSlotLost_transport, resetLink_transport])))

theorem takeFrame_transportOk {bytes : List Byte} (h : TransportOk s) : TransportOk (takeFrame bytes s) := by
  unfold takeFrame
  split
  · exact h.same (by simp)
  · unfold takeRecord
    split
    · exact takeAbort_transportOk h
    · split
      · exact takeFullReset_transportOk h
      · exact takeSoftReset_transportOk h
    all_goals (repeat' split) <;> exact h.same (by simp)

theorem linkLost_transportOk {cause : LossCause} (h : TransportOk s) :
    TransportOk (jobTests (takeLinkLoss (jobProceeds (engineSlotCleared (linkDown cause s))))) := by
  have down : TransportOk (linkDown cause s) := h.same rfl
  have proceeded := jobProceeds_transportOk (engineSlotCleared_transportOk down)
  unfold takeLinkLoss
  (repeat' split) <;> first
    | exact jobTests_transportOk proceeded
    | exact jobTests_transportOk (endingActions_transportOk (proceeded.same (by simp)))

/-! ### Every command -/

theorem linkFinish_transportOk (s0 u : State) (h : TransportOk u) : TransportOk (linkFinish s0 u) := h.same (by simp)

theorem exec_transportOk {c : Instr} (h : TransportOk s) (he : exec c s = .next t) : TransportOk t := by
  have concluded : ∀ {after}, (∀ u, after = some u → TransportOk u) → conclude s after = .next t → TransportOk t :=
    conclude_keeps linkFinish_transportOk h
  have other : ∀ {u : State}, u.transport = s.transport → TransportOk u := fun hu => h.same hu
  cases c with
  | powerOn => cases he; exact transportOk_reset.same rfl
  | signalDetectRising =>
    simp only [exec, execSignalDetectRising] at he
    split at he <;> cases he <;> exact other rfl
  | alignment =>
    have aligned : TransportOk (s.setLink { s.link with
        state := .up, reports := [.hello (helloOf s)], windowOpen := true }) := other rfl
    exact linkEvent_keeps linkFinish_transportOk h aligned he
  | lossOfSignal cause =>
    simp only [exec, execLossOfSignal] at he
    split at he <;> cases he
    · exact h
    · exact linkLost_transportOk h
  | frameReceived bytes => exact linkEvent_keeps linkFinish_transportOk h (takeFrame_transportOk h) he
  | frameEndedByStartDelimiter bytes =>
    have dropped : TransportOk (dropFrame (linkErrOf .linkCrc bytes) true s) := other (by simp)
    exact linkEvent_keeps linkFinish_transportOk h dropped he
  | transmissionEnds =>
    simp only [exec, execTransmissionEnds] at he
    split at he <;> cases he <;> exact other (by simp)
  | reportPlaced => exact concluded (fun _ => placeWaiting_transportOk h) he
  | fopen => exact concluded (fun _ => offerFopen_transportOk h) he
  | fclose => exact concluded (fun _ => offerFclose_transportOk h) he
  | phead => exact concluded (fun _ hu => other (otherRecords_transport (by simp [hu]))) he
  | pheadTake => exact concluded (fun _ => takePhead_transportOk h) he
  | pband => exact concluded (fun _ hu => other (otherRecords_transport (by simp [hu]))) he
  | bandLine => exact concluded (fun _ hu => other (otherRecords_transport (by simp [hu]))) he
  | pend => exact concluded (fun _ hu => other (otherRecords_transport (by simp [hu]))) he
  | topMarginLine => cases he; exact other (appendTopMargin_transport s)
  | fillLine => cases he; exact other (appendBottomFill_transport s)
  | twrite => exact concluded (fun _ hu => other (otherRecords_transport (by simp [hu]))) he
  | tread => exact concluded (fun _ hu => other (otherRecords_transport (by simp [hu]))) he
  | qstat => exact concluded (fun _ hu => other (otherRecords_transport (by simp [hu]))) he
  | abort tag => exact linkEvent_keeps linkFinish_transportOk h (takeAbort_transportOk h) he
  | resetFull tag => exact linkEvent_keeps linkFinish_transportOk h (takeFullReset_transportOk h) he
  | resetSoft tag => exact linkEvent_keeps linkFinish_transportOk h (takeSoftReset_transportOk h) he
  | done n => exact concluded (fun _ => takeDone_transportOk) he
  | fault n code => exact concluded (fun _ => takeFault_transportOk) he
  | motionTimeout => exact concluded (fun _ => takeTimeout_transportOk) he
  | conversion raw => exact concluded (fun _ => acceptConversion_transportOk h) he
  | warmTimerExpiry => exact concluded (fun _ => expireWarm_transportOk h) he
  | parkTimerExpiry =>
    simp only [exec, execParkTimerExpiry] at he
    split at he <;> cases he <;> exact other (by simp)
  | lineEnd => exact concluded (fun _ => endImageLine_transportOk h) he
  | floodLineEnd => exact concluded (fun _ => endFloodLine_transportOk h) he
  | holdTimerExpiry => exact concluded (fun _ => expireHold_transportOk h) he
  | lastCharacterSent =>
    simp only [exec, execLastCharacterSent] at he
    split at he <;> cases he
    · exact startTimer_transportOk h ‹_›
    · exact h
  | receivedLineIgnored line => exact concluded (fun _ => takeLine_transportOk) he

/-- Settles O4: a step is a command on the state with the queue's rest, and every command keeps the agreement. -/
theorem cardStateAgreesWithCommand : Obligations.CardStateAgreesWithCommand := by
  intro s t h hs
  obtain rfl | ⟨c, rest, he⟩ := step_cases hs
  · exact h
  · exact exec_transportOk (h.same (t := { s with pending := rest }) rfl) he

end Sys2Proof.Machine
end

section
/-!
PROOFS. O54, O55: a motion request by the command in flight and the pending slot, the motion timer's start, and the replies
and lines that change nothing.
-/

open Sys2Proof

namespace Sys2Proof.Machine

variable {s : State} {m : Motion} {k : InFlight} {n : CommandNumber} {code : ReplyCode}

/-! ### Motion requests (R146, R147, R148) -/

/-- The card states from which a command may be sent (R140). -/
theorem Motion.sendable_iff (m : Motion) (c : CardState) : m.sendable c = true ↔ (match m with
    | .load => c = .empty
    | .move _ _ _ | .eject _ => c = .loaded ∨ c = .atCell
    | .home => True) := by
  cases m <;> simp [Motion.sendable]

/-- A HOME is under way while it is pending or in flight (R147). -/
theorem homeUnderWay_iff (t : Transport) :
    homeUnderWay t = true ↔ t.pendingReq = some .home ∨ ∃ n, t.inFlight = some { number := n, motion := .home } := by
  have flight : t.inFlight.map InFlight.motion = some .home ↔ ∃ n, t.inFlight = some { number := n, motion := .home } := by
    rw [Option.map_eq_some_iff]
    exact ⟨fun ⟨⟨n, _⟩, hf, hm⟩ => ⟨n, by rw [hf]; exact congrArg _ (congrArg _ hm)⟩, fun ⟨n, hf⟩ => ⟨_, hf, rfl⟩⟩
  simp only [homeUnderWay, Bool.or_eq_true, beq_iff_eq, flight, or_comm]

/-- A HOME requested joins the one under way (R147). -/
theorem requestMotion_joins (h : homeUnderWay s.transport = true) : requestMotion .home s = s := by
  rw [requestMotion, if_pos ⟨rfl, h⟩]

/-- A request that does not join meets the pending slot, and with the slot empty the command in flight (R146, R147). -/
theorem requestMotion_meets (h : m = .home → homeUnderWay s.transport = false) : requestMotion m s =
    match s.transport.pendingReq, s.transport.inFlight with
    | some _, _ => if m = .home then s.setTransport { s.transport with pendingReq := some m } else s
    | none, some _ => s.setTransport { s.transport with pendingReq := some m }
    | none, none => sendOrDiscard m s := by
  have joins_not : ¬ (m = .home ∧ homeUnderWay s.transport = true) := fun ⟨hm, hu⟩ => by simp [h hm] at hu
  rw [requestMotion, if_neg joins_not]
  cases s.transport.pendingReq <;> cases s.transport.inFlight <;> rfl

/-- No HOME is under way with another command in flight and no HOME pending (R147). -/
theorem homeUnderWay_other (hi : s.transport.inFlight = some k) (hk : k.motion ≠ .home)
    (hp : s.transport.pendingReq ≠ some .home) : homeUnderWay s.transport = false := by
  simp [homeUnderWay, hi, hk, hp]

/-- The pending request is judged as one made of the empty slot (R148). -/
theorem takePending_some (hp : s.transport.pendingReq = some m) :
    takePending s = sendOrDiscard m (s.setTransport { s.transport with pendingReq := none }) := by
  simp only [takePending, hp]

theorem sendOrDiscard_sent (h : m.sendable s.transport.card = true) : sendOrDiscard m s = sendMotion m s := by
  rw [sendOrDiscard, if_pos h]

theorem sendOrDiscard_discarded (h : ¬ m.sendable s.transport.card = true) : sendOrDiscard m s = s := by
  rw [sendOrDiscard, if_neg h]

theorem motionRequestsMeetTheSlot : Clauses.MotionRequestsMeetTheSlot := by
  intro m s sent allowed slot
  have sendable : m.sendable s.transport.card = true ↔ allowed := m.sendable_iff _
  have sends : sendMotion m s = sent := by cases m <;> rfl
  refine ⟨fun hm hu => ?_, fun hi hp => ?_, fun k hi hp hk => ?_, fun k q hi hp => ⟨fun hm hk hq => ?_, fun hm => ?_⟩⟩
  · subst hm
    exact requestMotion_joins ((homeUnderWay_iff _).mpr hu)
  · have judged : requestMotion m s = sendOrDiscard m s := by
      rw [requestMotion_meets fun _ => by simp [homeUnderWay, hi, hp], hi, hp]
    have emptied : takePending (slot s) = sendOrDiscard m s := by
      rw [takePending_some (m := m) rfl]
      simp only [slot, State.setTransport, ← hp]
    have keeps : ({ sent with transport := { sent.transport with pendingReq := none } } : State) = sent := by
      simp only [sent, ← hp]
    rw [judged, emptied, keeps]
    refine ⟨fun ha => ?_, fun ha => ?_⟩
    · rw [sendOrDiscard_sent (sendable.mpr ha), sends]
      exact ⟨rfl, rfl⟩
    · rw [sendOrDiscard_discarded (mt sendable.mp ha)]
      exact ⟨rfl, rfl⟩
  · rw [requestMotion_meets fun hm => homeUnderWay_other hi (hk hm) (by simp [hp]), hi, hp]
    rfl
  · rw [requestMotion_meets fun _ => homeUnderWay_other hi hk (by simp [hp, hq]), hp]
    exact if_pos hm
  · rw [requestMotion_meets fun h => absurd h hm, hp]
    exact if_neg hm

/-! ### The motion timer (R138, R140) -/

theorem lastCharacterStartsTheTimer : Clauses.LastCharacterStartsTheTimer := by
  intro s k hi ht
  obtain ⟨number, motion⟩ := k
  have starts : exec .lastCharacterSent s = .next (s.setTransport { s.transport with timer := some motion.timeout }) := by
    simp only [exec, execLastCharacterSent, hi, ht]
  rw [starts]
  cases motion <;> rfl

/-- Settles O54: the request by the slot and the command in flight, and the timeouts by the command's kind. -/
theorem motionCommandsAreRequestedAndTimed : Obligations.MotionCommandsAreRequestedAndTimed :=
  ⟨motionRequestsMeetTheSlot, lastCharacterStartsTheTimer⟩

/-! ### Stray replies and unreadable lines (R139) -/

/-- No command in flight has this number. -/
def Stray (n : CommandNumber) (s : State) : Prop := ∀ k, s.transport.inFlight = some k → k.number ≠ n

theorem takeDone_stray (h : Stray n s) : takeDone n s = none := by
  unfold takeDone
  split
  · exact if_neg (h _ ‹_›)
  · rfl

theorem takeFault_stray (h : Stray n s) : takeFault n code s = none := by
  unfold takeFault
  split
  · exact if_neg (h _ ‹_›)
  · rfl

/-- A stray reply changes nothing (R139). -/
theorem exec_stray (h : Stray n s) : exec (.done n) s = .next s ∧ exec (.fault n code) s = .next s :=
  ⟨conclude_not_due (takeDone_stray h), conclude_not_due (takeFault_stray h)⟩

/-- NO_STOCK answers a LOAD alone (R139, R142). -/
theorem takeFault_noStock_other (hi : s.transport.inFlight = some k) (hm : k.motion ≠ .load) :
    takeFault n .noStock s = none := by
  simp only [takeFault, hi, if_neg hm, ite_self]

/-- A line longer than the port's limit is not readable (R137, R139). -/
theorem readReply_too_long {line : List Byte} (h : Config.motionLineMax < line.length) : readReply line = none := by
  rw [readReply, if_pos (.inr h)]

/-- A line acts as its reply does, and an unreadable one not at all (R139, log 13). -/
theorem exec_line (line : List Byte) (s : State) : exec (.receivedLineIgnored line) s =
    match readReply line with
    | none => .next s
    | some (.done n) => exec (.done n) s
    | some (.fault n code) => exec (.fault n code) s := by
  simp only [exec, execReceivedLineIgnored, execDone, execFault, takeLine]
  cases readReply line with
  | none => rfl
  | some r => cases r <;> rfl

/-- Settles O55: by the number of the command in flight, its kind, and what the line reads as. -/
theorem strayRepliesAreIgnored : Obligations.StrayRepliesAreIgnored := by
  intro s n code line
  refine ⟨fun hi => exec_stray (by simp [Stray, hi]), fun k hi hn => exec_stray (by simpa [Stray, hi] using hn),
    fun k hi hm => conclude_not_due (takeFault_noStock_other hi hm), fun h => ?_, readReply_too_long, fun h => ?_,
    fun h => ?_⟩ <;> rw [exec_line, h]

end Sys2Proof.Machine
end

section
/-!
PROOFS. O59: a TWRITE at the head of the queue waits, is refused in R167's order, or writes its entry whole.
-/

open Sys2Proof

namespace Sys2Proof.Machine

variable {s : State} {r : Record} {sel : TableSel} {n : Nat}

/-! ### The TWRITE by its judgement (R167, R168) -/

/-- The report composed for a write reads the link alone (R169, R199). -/
theorem composeSlot_setTables (p : Producer) (rep : Report) (s : State) (tb : Tables) :
    composeSlot p rep (s.setTables tb) = { composeSlot p rep s with tables := tb } := by
  simp [composeSlot_eq_of_link (t := s.setTables tb) (s := s) p rep rfl]

theorem exec_twrite_refused {code : RefusalCode} (hr : headRecord .twrite s = some r) (ho : tableOffered s = true)
    (hj : judgeTwrite r.payload s.tables = .inl code) :
    exec .twrite s = .next (linkFinish s (refuse .tables r code s)) :=
  exec_conclude (by simp [offerTwrite, hr, ho, hj])

theorem exec_twrite_taken {tb : Tables} {w : WrittenEntry} (hr : headRecord .twrite s = some r)
    (ho : tableOffered s = true) (hj : judgeTwrite r.payload s.tables = .inr (tb, w, sel, n)) :
    exec .twrite s = .next (linkFinish s (removeHead { composeSlot .tables
      (.tdone { tag := r.tag, table := sel, entry := n, written := w }) s with tables := tb })) :=
  exec_conclude (by simp [offerTwrite, hr, ho, hj, composeSlot_setTables])

/-- A TWRITE that names an entry with no pin mark is judged by its contents (R167 check 3). -/
theorem judgeTwrite_written {p : List Byte} {tb tb' : Tables} {w : WrittenEntry} (he : readEntry p = some (sel, n))
    (hp : tb.pinned sel n = false) (hw : writeEntry sel n (p.drop 2) tb = some (tb', w)) :
    judgeTwrite p tb = .inr (tb', w, sel, n) := by simp [judgeTwrite, he, hp, hw]

theorem judgeTwrite_unwritten {p : List Byte} {tb : Tables} (he : readEntry p = some (sel, n))
    (hp : tb.pinned sel n = false) (hw : writeEntry sel n (p.drop 2) tb = none) :
    judgeTwrite p tb = .inl .badField := by simp [judgeTwrite, he, hp, hw]

/-- The contents that R167's check 3 refuses, by table (R160, R162, R164, R165). -/
theorem writeEntry_refused {c : List Byte} {tb : Tables}
    (h : (sel = .layout ∧ ∀ l, readLayout c = some l → l.ok = false) ∨ (sel = .curve ∧ readQuarter c = none) ∨
      (sel = .profile ∧ ∀ p, readProfile c = some p → p.ok = false) ∨ (sel = .unit ∧ readUnit c = none)) :
    writeEntry sel n c tb = none := by
  rcases h with ⟨rfl, h⟩ | ⟨rfl, h⟩ | ⟨rfl, h⟩ | ⟨rfl, h⟩
  · cases hl : readLayout c with
    | none => simp [writeEntry, hl]
    | some l => simp [writeEntry, hl, h l hl]
  · simp [writeEntry, h]
  · cases hp : readProfile c with
    | none => simp [writeEntry, hp]
    | some p => simp [writeEntry, hp, h p hp]
  · simp [writeEntry, h]

/-- A profile just written is openable where its layout and curve are valid (R176). -/
theorem openable_set_profile {tb : Tables} {p : Profile} (hn : n < tb.profiles.length) :
    ({ tb with profiles := tb.profiles.set n { valid := true, fields := p } } : Tables).openable n =
      ((tb.layoutEntry p.layout).valid && (tb.curveEntry p.curve).valid) := by
  simp only [Tables.openable, Tables.profileEntry, getD_set_self hn, Bool.true_and]
  rfl

/-! ### The whole write and the refusals -/

theorem twriteWritesTheEntryWhole : Clauses.TwriteWritesTheEntryWhole := by
  intro s r sel n hr hs hw he hp taken
  have written : ∀ {tb w}, writeEntry sel n (r.payload.drop 2) s.tables = some (tb, w) → taken tb w := fun h =>
    exec_twrite_taken hr (tableOffered_of hs hw) (judgeTwrite_written he hp h)
  refine ⟨fun l hsel hl hok => written ?_, fun q hsel hq => written ?_, fun p hsel hc hok hn => written ?_,
    fun u hsel hu => written ?_⟩ <;> subst hsel
  · simp [writeEntry, hl, hok]
  · simp only [writeEntry, hq]
    rfl
  · simp [writeEntry, hc, hok, openable_set_profile hn]
  · simp [writeEntry, hu]

theorem twriteRefusalsInOrder : Clauses.TwriteRefusalsInOrder := by
  intro s r hr
  refine ⟨fun hwait => conclude_not_due ?_, fun hs hw => ?_⟩
  · rcases hwait with h | h <;> simp [offerTwrite, hr, tableOffered, h]
  · have refused : ∀ {code}, judgeTwrite r.payload s.tables = .inl code →
        exec .twrite s = .next (linkFinish s (refuse .tables r code s)) := exec_twrite_refused hr (tableOffered_of hs hw)
    refine ⟨fun he => refused (by simp [judgeTwrite, he]), fun sel n he => ⟨fun hp => refused ?_, fun hp hc => ?_⟩⟩
    · simp [judgeTwrite, he, hp]
    · exact refused (judgeTwrite_unwritten he hp (writeEntry_refused hc))

/-- Settles O59: the wait, the three checks in their order, and the write of each table. -/
theorem twriteIsTakenWholeOrRefused : Obligations.TwriteIsTakenWholeOrRefused :=
  ⟨twriteWritesTheEntryWhole, twriteRefusalsInOrder⟩

end Sys2Proof.Machine
end

section
/-!
PROOFS. O16: the contents of layouts, curve quarters, profiles and unit settings are read back from their bytes.
-/

open Sys2Proof

namespace Sys2Proof.Machine

/-! ### Coded fields (R187) -/

theorem numberAt_cons_zero (x : Byte) (b : List Byte) : numberAt (x :: b) 0 1 = x.toNat := byteAt_cons_zero x b

theorem readYesNo_yesNoByte (b : Bool) : readYesNo (yesNoByte b).toNat = some b := by cases b <;> rfl

/-- A field of two named values is read back where its byte marks the second. -/
theorem readNamed_namedByte {α : Type} (first second : α) (b : Bool) :
    readNamed first second (namedByte b).toNat = some (if b then second else first) := by cases b <;> rfl

/-! ### Layouts (R159) -/

/-- The fields of a layout at their offsets. -/
theorem layoutContents_fields {l : Layout} (h : l.ok = true) :
    let c := layoutContents l
    byteAt c 0 = l.rows ∧ byteAt c 1 = l.columns ∧ numberAt c 2 2 = l.wc ∧ numberAt c 4 2 = l.hc ∧
    numberAt c 6 2 = l.originX ∧ numberAt c 8 2 = l.originY ∧ numberAt c 10 2 = l.pitchX ∧ numberAt c 12 2 = l.pitchY ∧
    byteAt c 14 = (yesNoByte l.titleRow).toNat ∧ byteAt c 15 = l.indexCells ∧
    byteAt c 16 = (namedByte (l.fillOrder == .column)).toNat := by
  obtain ⟨⟨-, hr⟩, ⟨-, hc⟩, ⟨-, hw⟩, ⟨-, hh⟩, hx, hy, ⟨-, hpx⟩, ⟨-, hpy⟩, hi, -⟩ := (layoutsThatPass l).mp h
  have byte : l.rows < 256 ∧ l.columns < 256 ∧ l.indexCells < 256 := by omega
  have word : l.wc < 65536 ∧ l.hc < 65536 ∧ l.originX < 65536 ∧ l.originY < 65536 ∧ l.pitchX < 65536 ∧
    l.pitchY < 65536 := by omega
  simp [layoutContents, byteAt, numberAt_cons_zero, byte, word]

theorem readLayout_layoutContents {l : Layout} (h : l.ok = true) : readLayout (layoutContents l) = some l := by
  obtain ⟨h0, h1, h2, h4, h6, h8, h10, h12, h14, h15, h16⟩ := layoutContents_fields h
  have length : (layoutContents l).length = 17 := by simp [layoutContents]
  have order : (if l.fillOrder == .column then FillOrder.column else .row) = l.fillOrder := by
    cases l.fillOrder <;> rfl
  rw [readLayout, if_neg (not_not.mpr length), h0, h1, h2, h4, h6, h8, h10, h12, h14, h15, h16, readYesNo_yesNoByte,
    readNamed_namedByte, order]

/-! ### Profiles (R163)

`delta` opens the contents here: the equation lemma of so long a sum of bytes is what costs. -/

/-- The numbers of a profile at their offsets. -/
theorem profileContents_numbers {p : Profile} (h : p.ok = true) :
    let c := profileContents p
    byteAt c 0 = p.layout ∧ byteAt c 1 = p.curve ∧ numberAt c 2 2 = p.linePeriod ∧ numberAt c 4 2 = p.pulseMax ∧
    numberAt c 6 2 = p.voidPulse ∧ byteAt c 8 = p.fillGray ∧ numberAt c 10 2 = p.holdLimit ∧ numberAt c 12 2 = p.mRef ∧
    numberAt c 15 2 = p.overLimit ∧ numberAt c 17 2 = p.underLimit ∧ byteAt c 19 = p.averaging ∧
    numberAt c 22 2 = p.doseTolerance ∧ byteAt c 24 = p.warmCount ∧ byteAt c 25 = p.maxVoids := by
  obtain ⟨hl, hc, ⟨-, hper⟩, ⟨-, hmax⟩, hv, hf, hh, ⟨-, hm⟩, ho, hu, ha, ⟨-, hd⟩, ⟨-, hw⟩, hmv, -⟩ :=
    (profilesThatPass p).mp h
  have byte : p.layout < 256 ∧ p.curve < 256 ∧ p.fillGray < 256 ∧ p.warmCount < 256 ∧ p.maxVoids < 256 := by omega
  have word : p.linePeriod < 65536 ∧ p.pulseMax < 65536 ∧ p.voidPulse < 65536 ∧ p.holdLimit < 65536 ∧ p.mRef < 65536 ∧
    p.overLimit < 65536 ∧ p.underLimit < 65536 ∧ p.doseTolerance < 65536 := by omega
  have averaging : p.averaging < 256 := by
    simp only [List.mem_cons, List.not_mem_nil, or_false] at ha
    omega
  delta profileContents
  simp [byteAt, byte, word, averaging]

/-- The coded fields of a profile at their offsets. -/
theorem profileContents_coded (p : Profile) :
    let c := profileContents p
    byteAt c 9 = (namedByte (p.alignment == .topLeft)).toNat ∧ byteAt c 14 = (namedByte (!p.correctionOn)).toNat ∧
    byteAt c 20 = (namedByte (p.basis == .averaged)).toNat ∧
    byteAt c 21 = (namedByte (p.alertMode == .transparent)).toNat ∧ byteAt c 26 = (yesNoByte p.indexRequired).toNat := by
  delta profileContents
  simp [byteAt, numberAt_cons_zero]

theorem readProfile_profileContents {p : Profile} (h : p.ok = true) : readProfile (profileContents p) = some p := by
  obtain ⟨h0, h1, h2, h4, h6, h8, h10, h12, h15, h17, h19, h22, h24, h25⟩ := profileContents_numbers h
  obtain ⟨h9, h14, h20, h21, h26⟩ := profileContents_coded p
  have length : (profileContents p).length = 27 := by
    delta profileContents
    simp
  have align : (if p.alignment == .topLeft then Alignment.topLeft else .centre) = p.alignment := by
    cases p.alignment <;> rfl
  have basis : (if p.basis == .averaged then CompareBasis.averaged else .raw) = p.basis := by cases p.basis <;> rfl
  have mode : (if p.alertMode == .transparent then AlertMode.transparent else .latched) = p.alertMode := by
    cases p.alertMode <;> rfl
  have correction : (if (!p.correctionOn) = true then false else true) = p.correctionOn := by
    cases p.correctionOn <;> rfl
  rw [readProfile, if_neg (not_not.mpr length), h9, h14, h20, h21, h26, readNamed_namedByte, readNamed_namedByte,
    readNamed_namedByte, readNamed_namedByte, readYesNo_yesNoByte, align, basis, mode, correction, h0, h1, h2, h4, h6,
    h8, h10, h12, h15, h17, h19, h22, h24, h25]

/-! ### Curve quarters and unit settings (R162, R165) -/

theorem readValues_flatMap {vs : List Nat} (h : ∀ v ∈ vs, v < 65536) :
    readValues vs.length (vs.flatMap (natToBytes 2)) = vs := by
  induction vs with
  | nil => rfl
  | cons v vs ih =>
    obtain ⟨first, rest⟩ := List.forall_mem_cons.mp h
    rw [List.length_cons, List.flatMap_cons, readValues, numberAt_front first,
      List.drop_left' (natToBytes_length 2 v), ih rest]

theorem readQuarter_quarterContents {q : QuarterWrite} (ho : isQuarterOffset q.offset = true)
    (hn : q.values.length = 64) (hv : ∀ v ∈ q.values, v ≤ 8191) : readQuarter (quarterContents q) = some q := by
  have offset : byteAt (quarterContents q) 0 = q.offset := by
    have small : q.offset < 256 := by
      have := (isQuarterOffset_iff _).mp ho
      simp only [List.mem_cons, List.not_mem_nil, or_false] at this
      omega
    simp [quarterContents, byteAt, small]
  have count : byteAt (quarterContents q) 1 = 64 := by simp [quarterContents, byteAt, numberAt_cons_zero]
  have values : readValues 64 ((quarterContents q).drop 2) = q.values := by
    rw [quarterContents, List.drop_left' (by simp), ← hn]
    exact readValues_flatMap fun v hm => Nat.lt_of_le_of_lt (hv v hm) (by decide)
  have length : (quarterContents q).length = 130 := by
    simp [quarterContents, List.length_flatMap, hn]
  rw [readQuarter, offset, count, values, if_pos ⟨length, ho, rfl, by simpa using hv⟩]

theorem readUnit_unitContents {u : UnitSettings} (h : u.parkDelay ≤ 255) : readUnit (unitContents u) = some u := by
  have delay : byteAt (unitContents u) 0 = u.parkDelay := by
    simp [unitContents, byteAt, show u.parkDelay < 256 by omega]
  have reports : byteAt (unitContents u) 1 = (yesNoByte u.alertReports).toNat := by
    simp [unitContents, byteAt, numberAt_cons_zero]
  have length : (unitContents u).length = 2 := by simp [unitContents]
  rw [readUnit, if_pos length, delay, reports, readYesNo_yesNoByte, Option.map_some]

/-- Settles O16: each field is read at the offset it was written at. -/
theorem tableContentsReadBack : Obligations.TableContentsReadBack :=
  ⟨fun _ => readLayout_layoutContents, fun _ => readProfile_profileContents, fun _ => readQuarter_quarterContents,
    fun _ => readUnit_unitContents⟩

end Sys2Proof.Machine
end

section
/-!
PROOFS. O2, O9: every command keeps the table store's form and the contents of what stays pinned. Only a FOPEN and a
TWRITE write to the tables while an entry is pinned; every other event hands the tables on as they stand, or leaves
nothing pinned.
-/

namespace Sys2Proof.Machine

variable {s u t : State}

/-! ### Tables handed on -/

/-- From s to t the tables stay in order and stand as they were, unless t has nothing pinned (R174). -/
structure TablesHeld (s t : State) : Prop where
  ok : TablesOk t
  stand : t.tables = s.tables ∨ t.tables.pins = none

theorem TablesHeld.trans (h : TablesHeld s u) (h' : TablesHeld u t) : TablesHeld s t := by
  refine ⟨h'.ok, ?_⟩
  rcases h'.stand with stand | unpinned
  · rw [stand]
    exact h.stand
  · exact .inr unpinned

/-- What leaves the tables and the job controller's wait alone holds the tables. -/
theorem TablesOk.held (h : TablesOk s) (ht : t.tables = s.tables) (hj : t.job.onStop = s.job.onStop) : TablesHeld s t :=
  ⟨h.same ht hj, .inl ht⟩

theorem TablesHeld.same (h : TablesHeld s u) (ht : t.tables = u.tables) (hj : t.job.onStop = u.job.onStop) :
    TablesHeld s t := h.trans (h.ok.held ht hj)

/-- Where an entry stays pinned, held tables are those that stood before. -/
theorem TablesHeld.tables_eq {p : Pins} (h : TablesHeld s t) (hp : t.tables.pins = some p) : t.tables = s.tables :=
  h.stand.resolve_right (by simp [hp])

/-! ### The job controller -/

theorem enterIdle_unpinned (s : State) : (enterIdle s).tables.pins = none := by simp [enterIdle, releasePins_pins]

/-- A completion returns to IDLE, with the pins released, or leaves the tables (R174). -/
theorem completeJob_held (h : TablesOk s) : TablesHeld s (completeJob s) := by
  refine ⟨completeJob_tablesOk h, ?_⟩
  unfold completeJob completeNoStock completeEnding
  (repeat' split) <;> first
    | exact .inr (enterIdle_unpinned _)
    | exact .inl (by simp)

/-- The clearing of a RESET FULL finds nothing pinned; a disposal leaves the tables (R24, R179). -/
theorem takeStopSignal_held (h : TablesOk s) : TablesHeld s (takeStopSignal s) := by
  refine ⟨takeStopSignal_tablesOk h, ?_⟩
  unfold takeStopSignal
  split
  · exact .inl rfl
  · rename_i why hw
    cases why with
    | disposal =>
      dsimp only
      split <;> exact .inl (by simp)
    | resetFull =>
      right
      have unpinned := h.clearing_unpinned hw
      dsimp only
      split <;> simpa using unpinned

theorem TablesHeld.tested (h : TablesHeld s u) : TablesHeld s (jobTests u) := by
  have made : TablesHeld s (closingStep (composeFopened (meetOpening (takeStopSignal u)))) :=
    (h.trans (takeStopSignal_held h.ok)).same (by simp) (by simp)
  exact (made.trans (completeJob_held made.ok)).same (by simp [jobTests]) (by simp [jobTests])

theorem TablesHeld.proceeded (h : TablesHeld s u) : TablesHeld s (jobProceeds u) := by
  have made : TablesHeld s (closingStep (composeFopened u)) := h.same (by simp) (by simp)
  exact made.trans (completeJob_held made.ok)

theorem TablesHeld.ended (h : TablesHeld s u) : TablesHeld s (endingActions u) :=
  ⟨endingActions_tablesOk h.ok, by simpa using h.stand⟩

theorem TablesHeld.endedWith (h : TablesHeld s u) (o : FicheOutcome) : TablesHeld s (endingActions (setOutcome o u)) :=
  (h.same (t := setOutcome o u) (by simp) (by simp)).ended

/-! ### Records -/

/-- The page records, the TREAD and the QSTAT reach neither the tables nor the job controller's wait. -/
theorem otherRecords_held (h : TablesOk s) (he : examinePhead s = some t ∨ takePhead s = some t ∨
    examinePband s = some t ∨ takeBandLine s = some t ∨ examinePend s = some t ∨ offerTread s = some t ∨
    offerQstat s = some t) : TablesHeld s t := by
  rcases he with he | he | he | he | he | he | he
  · unfold examinePhead checkPhead at he
    (repeat' split at he) <;> cases he <;> exact h.held (by simp) (by simp)
  · unfold takePhead takePage at he
    (repeat' split at he) <;> cases he <;> exact h.held (by simp) (by simp)
  · unfold examinePband beginBand at he
    (repeat' split at he) <;> cases he <;> exact h.held (by simp) (by simp)
  · unfold takeBandLine consumeLine at he
    dsimp only at he
    (repeat' split at he) <;> cases he <;> exact h.held (by simp) (by simp)
  · unfold examinePend at he
    (repeat' split at he) <;> cases he <;> exact h.held (by simp) (by simp)
  · unfold offerTread at he
    (repeat' split at he) <;> cases he <;> exact h.held (by simp) (by simp)
  · unfold offerQstat clearOption at he
    (repeat' split at he) <;> cases he <;> exact h.held (by simp) (by simp)

theorem appendTopMargin_held (h : TablesOk s) : TablesHeld s (appendTopMargin s) := by
  unfold appendTopMargin appendFill
  (repeat' split) <;> exact h.held (by simp) (by simp)

theorem appendBottomFill_held (h : TablesOk s) : TablesHeld s (appendBottomFill s) := by
  unfold appendBottomFill appendFill
  (repeat' split) <;> exact h.held (by simp) (by simp)

theorem offerFclose_held (h : TablesOk s) (he : offerFclose s = some t) : TablesHeld s t := by
  unfold offerFclose at he
  (repeat' split at he) <;> cases he
  · exact h.held (by simp) (by simp)
  · unfold takeFclose
    split <;> exact (h.held (by simp) (by simp)).tested

/-! ### Conversions, timers and line ends -/

theorem acceptConversion_held {raw : Nat} (h : TablesOk s) (he : acceptConversion raw s = some t) : TablesHeld s t := by
  have taken : TablesHeld s (takeConversion raw s) := h.held (by simp) (by simp)
  unfold acceptConversion at he
  dsimp only at he
  (repeat' split at he) <;> cases he
  · exact taken.tested
  · exact taken

/-- A head that does not get READY in time ends the fiche (R129). -/
theorem expireWarm_held (h : TablesOk s) (he : expireWarm s = some t) : TablesHeld s t := by
  unfold expireWarm at he
  split at he <;> cases he
  have told : TablesHeld s (takeHeadNotReady (parkHead s)) :=
    ⟨takeHeadNotReady_tablesOk (h.same (by simp) (by simp)), .inl (by simp)⟩
  exact told.tested

/-- A line's end and the hold's leave the tables (R74, R76, R78). -/
theorem lineEvents_held (h : TablesOk s) (he : endImageLine s = some t ∨ endFloodLine s = some t ∨
    expireHold s = some t) : TablesHeld s t := by
  rcases he with he | he | he
  · unfold endImageLine at he
    split at he <;> cases he
    exact (h.held (by simp) (by simp)).tested
  · unfold endFloodLine at he
    split at he <;> cases he
    exact (h.held (by simp) (by simp)).tested
  · unfold expireHold at he
    split at he <;> cases he
    exact h.held (by simp) (by simp)

/-! ### Placed reports and replies -/

theorem placeWaiting_held (h : TablesOk s) (he : placeWaiting s = some t) : TablesHeld s t := by
  unfold placeWaiting at he
  (repeat' split at he) <;> cases he
  rename_i p r rest _ _
  have placed : TablesHeld s (s.setLink { s.link with slots := rest, reports := s.link.reports ++ [r] }) :=
    h.held rfl rfl
  cases p with
  | engine =>
    simp only [producerProceeds]
    split
    · exact (placed.same (by simp) (by simp)).tested
    · exact placed.tested
  | job => exact placed.tested
  | tables => exact placed
  | status => exact placed
  | link => exact placed
  | priority => exact placed

/-- The DONE of the HOME that ends FAULTED returns to IDLE; no other DONE reaches the tables (R28, R174). -/
theorem motionDone_held {f : InFlight} (h : TablesOk s) : TablesHeld s (motionDone f s) := by
  refine ⟨motionDone_tablesOk h, ?_⟩
  simp only [motionDone, takePending_frame]
  unfold tellDone
  (repeat' split) <;> first
    | exact .inr (enterIdle_unpinned _)
    | exact .inl (by simp)

theorem transportFault_held {c : TransportCode} {f : InFlight} (h : TablesOk s) : TablesHeld s (transportFault c f s) :=
  ⟨transportFault_tablesOk h, .inl (by simp)⟩

theorem takeDone_held {n : CommandNumber} (h : TablesOk s) (he : takeDone n s = some t) : TablesHeld s t := by
  unfold takeDone at he
  (repeat' split at he) <;> cases he
  exact (motionDone_held h).tested

theorem takeFault_held {n : CommandNumber} {code : ReplyCode} (h : TablesOk s) (he : takeFault n code s = some t) :
    TablesHeld s t := by
  unfold takeFault at he
  (repeat' split at he) <;> cases he
  · exact (transportFault_held h).tested
  · exact (transportFault_held h).tested
  · exact (h.held (by simp) (by simp)).tested

theorem takeTimeout_held (h : TablesOk s) (he : takeTimeout s = some t) : TablesHeld s t := by
  unfold takeTimeout at he
  split at he <;> cases he
  exact (transportFault_held h).tested

theorem takeLine_held {l : List Byte} (h : TablesOk s) (he : takeLine l s = some t) : TablesHeld s t := by
  unfold takeLine at he
  split at he
  · cases he
  · exact takeDone_held h he
  · exact takeFault_held h he

/-! ### Link loss, ABORT and RESET -/

theorem takeAbort_held {tag : Tag} {e : LinkErrReport} (h : TablesOk s) : TablesHeld s (takeAbort tag e s) := by
  unfold takeAbort abortTaken
  dsimp only
  (repeat' split)
  · exact (h.held (by simp) (by simp)).ended.tested
  · exact h.held (by simp) (by simp)
  · exact h.held (by simp) (by simp)

theorem TablesHeld.slotCleared (h : TablesHeld s u) : TablesHeld s (engineSlotCleared u) := by
  unfold engineSlotCleared
  split
  · exact h.same (by simp) (by simp)
  · exact h

theorem TablesHeld.blocksReset (h : TablesHeld s u) : TablesHeld s (softResetBlocks u) := by
  unfold softResetBlocks
  generalize hc : clearIntake (discardPending (clearAlerts u)) = v
  have cleared : TablesHeld s v := h.same (by simp [← hc]) (by simp [← hc])
  unfold softResetJob
  (repeat' split) <;> first
    | exact cleared.endedWith _
    | exact cleared.same (by simp) (by simp)

/-- A RESET SOFT keeps the tables (R180); the pins go with a completion alone. -/
theorem takeSoftReset_held {tag : Tag} (h : TablesOk s) : TablesHeld s (takeSoftReset tag s) := by
  have reset : TablesHeld s (resetLink .soft tag s) := h.held (by simp [resetLink]) (by simp [resetLink])
  exact reset.slotCleared.proceeded.blocksReset.tested

/-- A RESET FULL releases the pins before its clearing is awaited (R179). -/
theorem fullResetBlocks_held (h : TablesOk s) : TablesHeld s (fullResetBlocks s) := by
  have released : TablesOk (releasePins (discardPending (clearAlerts s))) :=
    releasePins_tablesOk (h.same (by simp) (by simp))
  have discarded : TablesOk (discardFiche (releasePins (discardPending (clearAlerts s)))) :=
    { released with clearing_unpinned := fun _ => releasePins_pins _ }
  exact ⟨discarded.same (by simp [fullResetBlocks]) (by simp [fullResetBlocks]),
    .inr (by simp [fullResetBlocks, discardFiche, releasePins_pins])⟩

theorem takeFullReset_held {tag : Tag} (h : TablesOk s) : TablesHeld s (takeFullReset tag s) := by
  have lost : TablesHeld s (engineSlotLost (resetLink .full tag s)) := by
    unfold engineSlotLost
    split <;> exact h.held (by simp [resetLink]) (by simp [resetLink])
  exact (lost.trans (fullResetBlocks_held lost.ok)).tested

theorem takeFrame_held {bytes : List Byte} (h : TablesOk s) : TablesHeld s (takeFrame bytes s) := by
  unfold takeFrame
  split
  · exact h.held (by simp) (by simp)
  · unfold takeRecord
    split
    · exact takeAbort_held h
    · split
      · exact takeFullReset_held h
      · exact takeSoftReset_held h
    all_goals (repeat' split) <;> exact h.held (by simp) (by simp)

theorem linkLost_held {cause : LossCause} (h : TablesOk s) :
    TablesHeld s (jobTests (takeLinkLoss (jobProceeds (engineSlotCleared (linkDown cause s))))) := by
  have down : TablesHeld s (linkDown cause s) := h.held rfl rfl
  have proceeded := down.slotCleared.proceeded
  unfold takeLinkLoss
  (repeat' split) <;> first
    | exact proceeded.tested
    | exact (proceeded.endedWith _).tested

/-! ### Every command but FOPEN and TWRITE -/

theorem linkFinish_held (s s0 u : State) (h : TablesHeld s u) : TablesHeld s (linkFinish s0 u) :=
  h.same (by simp) (by simp)

theorem exec_held {c : Instr} (hf : c ≠ .fopen) (hw : c ≠ .twrite) (h : TablesOk s) (he : exec c s = .next t) :
    TablesHeld s t := by
  have idle : TablesHeld s s := h.held rfl rfl
  have concluded : ∀ {after}, (∀ u, after = some u → TablesHeld s u) → conclude s after = .next t → TablesHeld s t :=
    conclude_keeps (linkFinish_held s) idle
  cases c with
  | fopen => exact absurd rfl hf
  | twrite => exact absurd rfl hw
  | powerOn => cases he; exact ⟨tablesOk_reset.same rfl rfl, .inr rfl⟩
  | signalDetectRising =>
    simp only [exec, execSignalDetectRising] at he
    split at he <;> cases he <;> exact h.held rfl rfl
  | alignment =>
    have aligned : TablesHeld s (s.setLink { s.link with
        state := .up, reports := [.hello (helloOf s)], windowOpen := true }) := h.held rfl rfl
    exact linkEvent_keeps (linkFinish_held s) idle aligned he
  | lossOfSignal cause =>
    simp only [exec, execLossOfSignal] at he
    split at he <;> cases he
    · exact idle
    · exact linkLost_held h
  | frameReceived bytes => exact linkEvent_keeps (linkFinish_held s) idle (takeFrame_held h) he
  | frameEndedByStartDelimiter bytes =>
    have dropped : TablesHeld s (dropFrame (linkErrOf .linkCrc bytes) true s) := h.held (by simp) (by simp)
    exact linkEvent_keeps (linkFinish_held s) idle dropped he
  | transmissionEnds =>
    simp only [exec, execTransmissionEnds] at he
    split at he <;> cases he <;> exact h.held (by simp) (by simp)
  | reportPlaced => exact concluded (fun _ => placeWaiting_held h) he
  | fclose => exact concluded (fun _ => offerFclose_held h) he
  | phead => exact concluded (fun _ hu => otherRecords_held h (by simp [hu])) he
  | pheadTake => exact concluded (fun _ hu => otherRecords_held h (by simp [hu])) he
  | pband => exact concluded (fun _ hu => otherRecords_held h (by simp [hu])) he
  | bandLine => exact concluded (fun _ hu => otherRecords_held h (by simp [hu])) he
  | pend => exact concluded (fun _ hu => otherRecords_held h (by simp [hu])) he
  | topMarginLine => cases he; exact appendTopMargin_held h
  | fillLine => cases he; exact appendBottomFill_held h
  | tread => exact concluded (fun _ hu => otherRecords_held h (by simp [hu])) he
  | qstat => exact concluded (fun _ hu => otherRecords_held h (by simp [hu])) he
  | abort tag => exact linkEvent_keeps (linkFinish_held s) idle (takeAbort_held h) he
  | resetFull tag => exact linkEvent_keeps (linkFinish_held s) idle (takeFullReset_held h) he
  | resetSoft tag => exact linkEvent_keeps (linkFinish_held s) idle (takeSoftReset_held h) he
  | done n => exact concluded (fun _ => takeDone_held h) he
  | fault n code => exact concluded (fun _ => takeFault_held h) he
  | motionTimeout => exact concluded (fun _ => takeTimeout_held h) he
  | conversion raw => exact concluded (fun _ => acceptConversion_held h) he
  | warmTimerExpiry => exact concluded (fun _ => expireWarm_held h) he
  | parkTimerExpiry =>
    simp only [exec, execParkTimerExpiry] at he
    split at he <;> cases he <;> exact h.held (by simp) (by simp)
  | lineEnd => exact concluded (fun _ hu => lineEvents_held h (by simp [hu])) he
  | floodLineEnd => exact concluded (fun _ hu => lineEvents_held h (by simp [hu])) he
  | holdTimerExpiry => exact concluded (fun _ hu => lineEvents_held h (by simp [hu])) he
  | lastCharacterSent =>
    simp only [exec, execLastCharacterSent] at he
    split at he <;> cases he <;> exact h.held rfl rfl
  | receivedLineIgnored line => exact concluded (fun _ => takeLine_held h) he

/-! ### FOPEN -/

/-- The pins under an openable profile name it and the entries it uses (R12, R173, R176). -/
theorem TablesOk.pinned {n : Nat} (h : TablesOk s) (hn : n < 8) (ho : s.tables.openable n = true)
    (ht : t.tables = { s.tables with pins := some (pinsOf n s.tables) }) (hj : t.job.onStop = none) : TablesOk t := by
  have marks : TablesOk ((s.setJob t.job).setTables { s.tables with pins := some (pinsOf n s.tables) }) :=
    { h with
      pins_ok := fun p hp => by cases hp; exact ⟨hn, ho, rfl, rfl⟩
      clearing_unpinned := fun hw => nomatch hj.symm.trans hw }
  exact marks.same ht rfl

/-- A FOPEN is taken for a profile of the table (R11). -/
theorem judgeFopen_lt {r : Record} {f : FopenFields} (h : judgeFopen r s = .inr f) : f.profile < 8 := by
  unfold judgeFopen at h
  (repeat' split at h) <;> cases h
  omega

theorem offerFopen_tablesOk (h : TablesOk s) (he : offerFopen s = some t) : TablesOk t := by
  unfold offerFopen at he
  (repeat' split at he) <;> cases he
  · exact h.same (by simp) (by simp)
  · exact h.pinned (judgeFopen_lt ‹_›) (judgeFopen_openable ‹_›) (by simp [takeFopen]) (by simp [takeFopen])

/-- A FOPEN writes no entry; it sets the pin marks alone (R12). -/
theorem offerFopen_tables (he : offerFopen s = some t) : ∃ pins, t.tables = { s.tables with pins := pins } := by
  obtain ⟨r, code, rfl⟩ | ⟨r, f, rfl, -, -⟩ := offerFopen_cases he
  · exact ⟨s.tables.pins, by simp⟩
  · exact ⟨some (pinsOf f.profile s.tables), by simp [takeFopen]⟩

/-! ### TWRITE -/

/-- A quarter that is read begins at a quarter's offset and has 64 values within the curve's range (R161, R162). -/
theorem readQuarter_ok {c : List Byte} {q : QuarterWrite} (h : readQuarter c = some q) :
    q.offset + 64 ≤ 256 ∧ q.values.length = 64 ∧ ∀ v ∈ q.values, v ≤ 8191 := by
  unfold readQuarter at h
  split at h <;> cases h
  rename_i checks
  obtain ⟨-, offset, -, values⟩ := checks
  have small := (isQuarterOffset_iff _).mp offset
  simp only [List.mem_cons, List.not_mem_nil, or_false] at small
  exact ⟨by dsimp only; omega, readValues_length _ _, by simpa using values⟩

/-- A quarter written leaves a curve of 256 values in range (R161, R162). -/
theorem CurveEntry.write_ok {c : CurveEntry} {q : QuarterWrite} (hc : c.values.length = 256 ∧ ∀ v ∈ c.values, v ≤ 8191)
    (ho : q.offset + 64 ≤ 256) (hn : q.values.length = 64) (hq : ∀ v ∈ q.values, v ≤ 8191) :
    (c.write q).values.length = 256 ∧ ∀ v ∈ (c.write q).values, v ≤ 8191 := by
  obtain ⟨length, range⟩ := hc
  refine ⟨?_, fun v hv => ?_⟩
  · simp only [CurveEntry.write, List.length_append, List.length_take, List.length_drop, length, hn]
    omega
  · simp only [CurveEntry.write, List.mem_append] at hv
    rcases hv with (hv | hv) | hv
    · exact range v (List.mem_of_mem_take hv)
    · exact hq v hv
    · exact range v (List.mem_of_mem_drop hv)

theorem byteAt_lt (bs : List Byte) (k : Nat) : byteAt bs k < 256 := by
  unfold byteAt numberAt
  rcases bs.drop k with _ | ⟨b, rest⟩
  · simp [bytesToNat]
  · simpa [bytesToNat] using b.isLt

theorem readUnit_ok {c : List Byte} {u : UnitSettings} (h : readUnit c = some u) : u.parkDelay ≤ 255 := by
  unfold readUnit at h
  split at h
  · obtain ⟨y, -, rfl⟩ := Option.map_eq_some_iff.mp h
    exact Nat.le_of_lt_succ (byteAt_lt c 0)
  · cases h

theorem curveEntry_ok (h : TablesOk s) {n : Nat} (hn : n < 4) :
    (s.tables.curveEntry n).values.length = 256 ∧ ∀ v ∈ (s.tables.curveEntry n).values, v ≤ 8191 := by
  have inside : n < s.tables.curves.length := by rwa [h.curves_length]
  unfold Tables.curveEntry
  rw [List.getD_eq_getElem _ _ inside]
  exact h.curves_ok _ (List.getElem_mem inside)

/-- What a write that passes its checks puts into the tables (R160, R162, R164, R165, R168). -/
theorem writeEntry_cases {sel : TableSel} {n : Nat} {c : List Byte} {tb tb' : Tables} {w : WrittenEntry}
    (hw : writeEntry sel n c tb = some (tb', w)) :
    (∃ l : Layout, l.ok = true ∧ tb' = { tb with layouts := tb.layouts.set n { valid := true, fields := l } }) ∨
    (∃ q, sel = .curve ∧ readQuarter c = some q ∧
      tb' = { tb with curves := tb.curves.set n ((tb.curveEntry n).write q) }) ∨
    (∃ f : Profile, f.ok = true ∧ tb' = { tb with profiles := tb.profiles.set n { valid := true, fields := f } }) ∨
    ∃ u, readUnit c = some u ∧ tb' = { tb with unit := u } := by
  unfold writeEntry at hw
  (repeat' split at hw) <;> cases hw
  · exact .inl ⟨_, ‹_›, rfl⟩
  · exact .inr (.inl ⟨_, rfl, ‹_›, rfl⟩)
  · exact .inr (.inr (.inl ⟨_, ‹_›, rfl⟩))
  · exact .inr (.inr (.inr ⟨_, ‹_›, rfl⟩))

theorem forall_mem_set {α : Type} {P : α → Prop} {l : List α} {a : α} {n : Nat} (h : ∀ x ∈ l, P x) (ha : P a) :
    ∀ x ∈ l.set n a, P x := fun x hx => (mem_of_mem_set hx).elim (fun e => e ▸ ha) (h x)

/-- A taken TWRITE leaves the pins on an openable profile and the entries it names (R173, R174, R176). -/
theorem judgeTwrite_pins_ok {p : List Byte} {tb : Tables} {w : WrittenEntry} {sel : TableSel} {n : Nat}
    (h : TablesOk s) (hj : judgeTwrite p s.tables = .inr (tb, w, sel, n)) :
    ∀ q, tb.pins = some q → q.profile < 8 ∧ tb.openable q.profile = true ∧
      q.layout = (tb.profileEntry q.profile).fields.layout ∧ q.curve = (tb.profileEntry q.profile).fields.curve := by
  intro q hq
  have pins : tb.pins = s.tables.pins := (writeEntry_other (judgeTwrite_taken hj).2.2).1
  rw [pins] at hq
  obtain ⟨-, profile, layout, curve⟩ := judgeTwrite_pinned hj hq
  obtain ⟨hlt, openable, hlayout, hcurve⟩ := h.pins_ok q hq
  have stays : tb.openable q.profile = s.tables.openable q.profile := by
    simp only [Tables.openable, profile, ← hlayout, ← hcurve, layout, curve]
  exact ⟨hlt, by rwa [stays], by rwa [profile], by rwa [profile]⟩

/-- A taken TWRITE leaves the tables in order (R158 to R165, R168). -/
theorem judgeTwrite_tablesOk {p : List Byte} {tb : Tables} {w : WrittenEntry} {sel : TableSel} {n : Nat}
    (h : TablesOk s) (hj : judgeTwrite p s.tables = .inr (tb, w, sel, n)) : TablesOk (s.setTables tb) := by
  obtain ⟨he, -, hw⟩ := judgeTwrite_taken hj
  have pins := judgeTwrite_pins_ok h hj
  have unpinned : s.job.onStop = some .resetFull → tb.pins = none := fun hs => by
    rw [(writeEntry_other hw).1, h.clearing_unpinned hs]
  obtain ⟨l, ok, rfl⟩ | ⟨q, rfl, hq, rfl⟩ | ⟨f, ok, rfl⟩ | ⟨u, hu, rfl⟩ := writeEntry_cases hw
  · exact { h with
      layouts_length := by simpa using h.layouts_length
      layouts_ok := forall_mem_set h.layouts_ok (by rwa [if_pos rfl])
      pins_ok := pins, clearing_unpinned := unpinned }
  · obtain ⟨offset, length, range⟩ := readQuarter_ok hq
    exact { h with
      curves_length := by simpa using h.curves_length
      curves_ok := forall_mem_set h.curves_ok
        (CurveEntry.write_ok (curveEntry_ok h (readEntry_lt he)) offset length range)
      pins_ok := pins, clearing_unpinned := unpinned }
  · exact { h with
      profiles_length := by simpa using h.profiles_length
      profiles_ok := forall_mem_set h.profiles_ok (by rwa [if_pos rfl])
      pins_ok := pins, clearing_unpinned := unpinned }
  · exact { h with unit_ok := readUnit_ok hu, pins_ok := pins, clearing_unpinned := unpinned }

/-- A TWRITE is refused, or taken with the tables it writes (R167, R168). -/
theorem offerTwrite_cases (he : offerTwrite s = some t) : t.job = s.job ∧
    (t.tables = s.tables ∨ ∃ p w sel n, judgeTwrite p s.tables = .inr (t.tables, w, sel, n)) := by
  unfold offerTwrite at he
  (repeat' split at he) <;> cases he
  · exact ⟨by simp, .inl (by simp)⟩
  · rename_i hj
    exact ⟨by simp, .inr ⟨_, _, _, _, by simpa using hj⟩⟩

theorem offerTwrite_tablesOk (h : TablesOk s) (he : offerTwrite s = some t) : TablesOk t := by
  obtain ⟨job, stand | ⟨p, w, sel, n, hj⟩⟩ := offerTwrite_cases he
  · exact h.same stand (by rw [job])
  · exact (judgeTwrite_tablesOk h hj).same rfl (by rw [job]; rfl)

/-! ### Every command -/

theorem linkFinish_tablesOk (s0 u : State) (h : TablesOk u) : TablesOk (linkFinish s0 u) := h.same (by simp) (by simp)

theorem exec_tablesOk {c : Instr} (h : TablesOk s) (he : exec c s = .next t) : TablesOk t := by
  by_cases hf : c = .fopen
  · subst hf
    exact conclude_keeps linkFinish_tablesOk h (fun _ => offerFopen_tablesOk h) he
  · by_cases hw : c = .twrite
    · subst hw
      exact conclude_keeps linkFinish_tablesOk h (fun _ => offerTwrite_tablesOk h) he
    · exact (exec_held hf hw h he).ok

/-- Settles O2: a step is a command on the state with the queue's rest, and every command keeps the form. -/
theorem tableFormIsKept : Obligations.TableFormIsKept := by
  intro s t h hs
  obtain rfl | ⟨c, rest, he⟩ := step_cases hs
  · exact h
  · exact exec_tablesOk (h.same (t := { s with pending := rest }) rfl rfl) he

/-! ### Pinned entries (R174) -/

/-- The entries that pins name are the same in both tables. -/
def PinnedAlike (p : Pins) (tb tb' : Tables) : Prop :=
  tb'.profileEntry p.profile = tb.profileEntry p.profile ∧ tb'.layoutEntry p.layout = tb.layoutEntry p.layout ∧
    tb'.curveEntry p.curve = tb.curveEntry p.curve

theorem PinnedAlike.of_eq {p : Pins} {tb tb' : Tables} (h : tb' = tb) : PinnedAlike p tb tb' := by
  subst h
  exact ⟨rfl, rfl, rfl⟩

theorem offerFopen_pinnedAlike {p : Pins} (he : offerFopen s = some t) : PinnedAlike p s.tables t.tables := by
  obtain ⟨pins, tables⟩ := offerFopen_tables he
  rw [tables]
  exact ⟨rfl, rfl, rfl⟩

theorem offerTwrite_pinnedAlike {p : Pins} (hp : s.tables.pins = some p) (he : offerTwrite s = some t) :
    PinnedAlike p s.tables t.tables := by
  obtain ⟨-, stand | ⟨_, _, _, _, hj⟩⟩ := offerTwrite_cases he
  · exact .of_eq stand
  · exact (judgeTwrite_pinned hj hp).2

theorem exec_pinnedAlike {c : Instr} {p : Pins} (h : TablesOk s) (hs : s.tables.pins = some p)
    (ht : t.tables.pins = some p) (he : exec c s = .next t) : PinnedAlike p s.tables t.tables := by
  have finished : ∀ s0 u, PinnedAlike p s.tables u.tables → PinnedAlike p s.tables (linkFinish s0 u).tables := by simp
  have concluded : ∀ {after}, (∀ u, after = some u → PinnedAlike p s.tables u.tables) → conclude s after = .next t →
      PinnedAlike p s.tables t.tables :=
    conclude_keeps (P := fun u => PinnedAlike p s.tables u.tables) finished (.of_eq rfl)
  by_cases hf : c = .fopen
  · subst hf
    exact concluded (fun _ => offerFopen_pinnedAlike) he
  · by_cases hw : c = .twrite
    · subst hw
      exact concluded (fun _ => offerTwrite_pinnedAlike hs) he
    · exact .of_eq ((exec_held hf hw h he).tables_eq ht)

/-- Settles O9: held tables stand where an entry stays pinned; a FOPEN writes no entry and a TWRITE no pinned one. -/
theorem pinnedEntriesKeepTheirContents : Obligations.PinnedEntriesKeepTheirContents := by
  intro s t p h hs hp ht
  obtain rfl | ⟨c, rest, he⟩ := step_cases hs
  · exact ⟨rfl, rfl, rfl⟩
  · exact exec_pinnedAlike (s := { s with pending := rest }) (h.same rfl rfl) hp ht he

end Sys2Proof.Machine
end

section
/-!
PROOFS. O1: every command keeps the feed link's bounds, by the records, the frames and the events that reach the link
interface or page intake's notes on the head record.
-/

namespace Sys2Proof.Machine

variable {s t : State}

/-! ### Small changes of the link -/

theorem LinkOk.up_of_head {k : RecordKind} {r : Record} (h : LinkOk s) (hr : headRecord k s = some r) :
    s.link.state = .up := by
  refine h.up_of_inbound fun hi => ?_
  simp [headRecord, hi] at hr

/-- An emptied slot leaves the others in order (R199). -/
theorem LinkOk.slotTaken {x : Producer × Report} {rest : List (Producer × Report)} (h : LinkOk s)
    (hs : s.link.slots = x :: rest) : LinkOk (s.setLink { s.link with slots := rest }) := by
  have nodup := h.slots_nodup
  rw [hs, List.map_cons, List.nodup_cons] at nodup
  refine { h with slots_nodup := nodup.2, not_up := fun hu => ?_, slots_no_grant := fun y hy => ?_ }
  · have empty := (h.not_up hu).2.2.1
    simp [hs] at empty
  · exact h.slots_no_grant y (hs ▸ List.mem_cons_of_mem x hy)

/-- A complete transmission leaves the link in order (R198). -/
theorem LinkOk.transmissionEnded (h : LinkOk s) : LinkOk (s.setLink { s.link with inTransmission := none }) :=
  { h with not_up := fun hu =>
      have ⟨inbound, reports, slots, _, counter, window⟩ := h.not_up hu
      ⟨inbound, reports, slots, rfl, counter, window⟩ }

/-- A record that is no priority record takes a free place at the tail, with the grant window closed (R188, R190). -/
theorem LinkOk.queued {r : Record} (h : LinkOk s) (hu : s.link.state = .up) (hw : s.link.windowOpen = false)
    (hn : s.link.inbound.length < Config.inboundSize) (hk : r.kind ≠ .abort ∧ r.kind ≠ .reset) :
    LinkOk (s.setLink { s.link with inbound := s.link.inbound ++ [r] }) := by
  have head : ∀ k, s.link.inbound.head?.map Record.kind = some k →
      (s.link.inbound ++ [r]).head?.map Record.kind = some k := fun k hk => by
    cases hi : s.link.inbound with
    | nil => simp [hi] at hk
    | cons x rest => simpa [hi] using hk
  refine { h with
    inbound_le := by simpa using hn
    not_up := fun hd => absurd hu hd
    window_inbound := fun hw' => by simp [hw] at hw'
    no_priority := fun x hx => ?_
    band_head := fun hb => head _ (h.band_head hb)
    phead_head := fun hp => head _ (h.phead_head hp) }
  rcases List.mem_append.mp hx with hx | hx
  · exact h.no_priority x hx
  · exact List.mem_singleton.mp hx ▸ hk

/-- A grant alone in the report queue opens the window over an empty inbound queue (R183, R190, R193). -/
theorem linkOk_granted {g : Report} (hg : g.isGrant = true) (hu : s.link.state = .up) (hi : s.link.inbound = [])
    (hr : s.link.reports = [g]) (hw : s.link.windowOpen = true) (hs : s.link.slots = [])
    (hc : s.link.counter ≤ Config.creditLimit) (hb : s.intake.band = none) (hp : s.intake.pheadChecked = false) :
    LinkOk s := by
  constructor <;> simp [hg, hu, hi, hr, hw, hs, hc, hb, hp, Config.reportQueueSize]

/-! ### Records -/

theorem offerFopen_linkOk (h : LinkOk s) (he : offerFopen s = some t) : LinkOk t := by
  unfold offerFopen at he
  (repeat' split at he) <;> cases he
  · exact refuse_linkOk h (h.up_of_head ‹_›)
  · have up := h.up_of_head ‹_›
    exact removeHead_linkOk (h.frame (by simp) (by simp)) (by simpa using up)

theorem offerFclose_linkOk (h : LinkOk s) (he : offerFclose s = some t) : LinkOk t := by
  unfold offerFclose at he
  (repeat' split at he) <;> cases he
  · exact refuse_linkOk h (h.up_of_head ‹_›)
  · have up := h.up_of_head ‹_›
    have closing : ∀ u : State, LinkOk u → u.link.state = .up →
        LinkOk (jobTests (removeHead (setJobState .closing (endOpenPage u)))) := fun u hu hup =>
      jobTests_linkOk (removeHead_linkOk ((endOpenPage_linkOk hu).frame (by simp) (by simp)) (by simpa using hup))
    unfold takeFclose
    split
    · exact closing s h up
    · exact closing _ h.setFiche up

/-- A PHEAD that passed its checks is the record at the head (R41). -/
theorem checkPhead_linkOk {r : Record} (h : LinkOk s) (hr : headRecord .phead s = some r) : LinkOk (checkPhead s) := by
  have ended := endOpenPage_linkOk h
  obtain ⟨kind, head⟩ := headRecord_eq_some hr
  exact { ended with phead_head := fun _ => by simp [checkPhead, head, kind] }

theorem examinePhead_linkOk (h : LinkOk s) (he : examinePhead s = some t) : LinkOk t := by
  unfold examinePhead at he
  (repeat' split at he) <;> cases he
  · exact refuse_linkOk h (h.up_of_head ‹_›)
  · exact refuse_linkOk h (h.up_of_head ‹_›)
  · exact checkPhead_linkOk h ‹_›

theorem takePage_linkOk {cell : Nat} {f : PheadFields} (h : LinkOk s) (hu : s.link.state = .up) :
    LinkOk (takePage cell f s) :=
  removeHead_linkOk (admit_linkOk (h.congr (by simp) (by simp) (by simp))) (by simpa using hu)

theorem takePhead_linkOk (h : LinkOk s) (he : takePhead s = some t) : LinkOk t := by
  unfold takePhead at he
  split at he
  · cases he
  · have up := h.up_of_head ‹_›
    (repeat' split at he) <;> cases he
    · exact refuse_linkOk h up
    · exact refuse_linkOk h up
    · exact refuse_linkOk h up
    · exact takePage_linkOk h up

/-- The band in hand is that of the record at the head (R45, R49). -/
theorem beginBand_linkOk {r : Record} (h : LinkOk s) (hr : headRecord .pband s = some r) : LinkOk (beginBand r s) := by
  have up := h.up_of_head hr
  obtain ⟨kind, head⟩ := headRecord_eq_some hr
  unfold beginBand
  (repeat' split)
  · exact refuse_linkOk h up
  · exact refuse_linkOk h up
  · exact { h with band_head := fun _ => by simp [head, kind] }

theorem examinePband_linkOk (h : LinkOk s) (he : examinePband s = some t) : LinkOk t := by
  unfold examinePband at he
  (repeat' split at he) <;> cases he
  · exact refuse_linkOk h (h.up_of_head ‹_›)
  · exact beginBand_linkOk h ‹_›
  · exact removeHead_linkOk h (h.up_of_head ‹_›)
  · exact refuse_linkOk h (h.up_of_head ‹_›)

theorem takeBandLine_linkOk (h : LinkOk s) (he : takeBandLine s = some t) : LinkOk t := by
  unfold takeBandLine consumeLine at he
  dsimp only at he
  split at he
  · have band : s.intake.band.isSome = true := by simp [*]
    (repeat' split at he) <;> cases he
    · exact advanceBand_linkOk (h.congr (by simp) (by simp) (by simp)) (by simpa using band)
    · exact advanceBand_linkOk (appendLine_linkOk h) (by simpa using band)
  · cases he

theorem examinePend_linkOk (h : LinkOk s) (he : examinePend s = some t) : LinkOk t := by
  unfold examinePend at he
  split at he
  · cases he
  · have up := h.up_of_head ‹_›
    (repeat' split at he) <;> cases he
    · exact refuse_linkOk h up
    · exact removeHead_linkOk (endPage_linkOk h) (by simpa using up)
    · exact removeHead_linkOk (h.congr rfl id id) up
    · exact refuse_linkOk h up

theorem appendTopMargin_linkOk (h : LinkOk s) : LinkOk (appendTopMargin s) := by
  have filled : ∀ c, LinkOk (appendFill c s) := fun _ => appendLine_linkOk h
  unfold appendTopMargin
  (repeat' split)
  · exact h
  · exact (filled _).congr rfl id id
  · exact filled _
  · exact h

theorem appendBottomFill_linkOk (h : LinkOk s) : LinkOk (appendBottomFill s) := by
  have filled : ∀ c, LinkOk (appendFill c s) := fun _ => appendLine_linkOk h
  unfold appendBottomFill
  (repeat' split)
  · exact h
  · exact (filled _).congr rfl id id
  · exact filled _
  · exact h

theorem offerTwrite_linkOk (h : LinkOk s) (he : offerTwrite s = some t) : LinkOk t := by
  unfold offerTwrite at he
  (repeat' split at he) <;> cases he
  · exact refuse_linkOk h (h.up_of_head ‹_›)
  · have up := h.up_of_head ‹_›
    have written : ∀ tb, LinkOk (s.setTables tb) := fun _ => h.frame rfl rfl
    exact removeHead_linkOk (composeSlot_linkOk (written _) rfl) (by simpa using up)

theorem offerTread_linkOk (h : LinkOk s) (he : offerTread s = some t) : LinkOk t := by
  unfold offerTread at he
  (repeat' split at he) <;> cases he
  · exact refuse_linkOk h (h.up_of_head ‹_›)
  · have up := h.up_of_head ‹_›
    exact removeHead_linkOk (composeSlot_linkOk h rfl) (by simpa using up)

theorem clearOption_linkOk {r : Record} (h : LinkOk s) : LinkOk (clearOption r s) := by
  unfold clearOption
  split
  · exact { h.frame (t := clearAlerts s) (by simp) (by simp) with }
  · exact h

theorem clearOption_state (r : Record) (s : State) : (clearOption r s).link.state = s.link.state := by
  unfold clearOption
  split <;> simp

theorem offerQstat_linkOk (h : LinkOk s) (he : offerQstat s = some t) : LinkOk t := by
  unfold offerQstat at he
  (repeat' split at he) <;> cases he
  have up := h.up_of_head ‹_›
  exact removeHead_linkOk (clearOption_linkOk (composeSlot_linkOk h rfl)) (by simpa [clearOption_state] using up)

/-! ### Conversions, timers, line ends and replies -/

theorem acceptConversion_linkOk {raw : Nat} (h : LinkOk s) (he : acceptConversion raw s = some t) : LinkOk t := by
  have converted : LinkOk (takeConversion raw s) := takeConversion_linkOk h
  unfold acceptConversion at he
  dsimp only at he
  (repeat' split at he) <;> cases he
  · exact jobTests_linkOk converted
  · exact converted

theorem expireWarm_linkOk (h : LinkOk s) (he : expireWarm s = some t) : LinkOk t := by
  unfold expireWarm at he
  split at he <;> cases he
  exact jobTests_linkOk (takeHeadNotReady_linkOk (h.frame (by simp) (by simp)))

theorem endImageLine_linkOk (h : LinkOk s) (he : endImageLine s = some t) : LinkOk t := by
  unfold endImageLine at he
  split at he <;> cases he
  exact jobTests_linkOk (imageLineEnd_linkOk h)

theorem endFloodLine_linkOk (h : LinkOk s) (he : endFloodLine s = some t) : LinkOk t := by
  unfold endFloodLine at he
  split at he <;> cases he
  exact jobTests_linkOk (floodLineEnd_linkOk h)

theorem expireHold_linkOk (h : LinkOk s) (he : expireHold s = some t) : LinkOk t := by
  unfold expireHold at he
  split at he <;> cases he
  exact voidFrame_linkOk h

theorem takeDone_linkOk {n : CommandNumber} (h : LinkOk s) (he : takeDone n s = some t) : LinkOk t := by
  unfold takeDone at he
  (repeat' split at he) <;> cases he
  exact jobTests_linkOk (motionDone_linkOk h)

theorem takeFault_linkOk {n : CommandNumber} {code : ReplyCode} (h : LinkOk s) (he : takeFault n code s = some t) :
    LinkOk t := by
  unfold takeFault at he
  (repeat' split at he) <;> cases he
  · exact jobTests_linkOk (transportFault_linkOk h)
  · exact jobTests_linkOk (transportFault_linkOk h)
  · exact jobTests_linkOk (loadNoStock_linkOk h)

theorem takeTimeout_linkOk (h : LinkOk s) (he : takeTimeout s = some t) : LinkOk t := by
  unfold takeTimeout at he
  split at he <;> cases he
  exact jobTests_linkOk (transportFault_linkOk h)

theorem takeLine_linkOk {l : List Byte} (h : LinkOk s) (he : takeLine l s = some t) : LinkOk t := by
  unfold takeLine at he
  split at he
  · cases he
  · exact takeDone_linkOk h he
  · exact takeFault_linkOk h he

/-! ### Placed reports -/

/-- The waiting report takes the free place it was held for, and its producer goes on (R199). -/
theorem placeWaiting_linkOk (h : LinkOk s) (he : placeWaiting s = some t) : LinkOk t := by
  unfold placeWaiting at he
  split at he
  · cases he
  · rename_i p r rest hs
    split at he <;> cases he
    rename_i hc
    simp only [Bool.and_eq_true, State.linkUp, queueRoom, beq_iff_eq, decide_eq_true_eq] at hc
    have placed : LinkOk (s.setLink { s.link with slots := rest, reports := s.link.reports ++ [r] }) :=
      placeReport_linkOk (h.slotTaken hs) hc.1 hc.2 (h.slots_no_grant (p, r) (by simp [hs]))
    cases p with
    | engine =>
      simp only [producerProceeds]
      split
      · exact jobTests_linkOk (release_linkOk placed)
      · exact jobTests_linkOk placed
    | job => exact jobTests_linkOk placed
    | tables => exact placed
    | status => exact placed
    | link => exact placed
    | priority => exact placed

/-! ### Link loss, ABORT, RESET and frames -/

theorem engineSlotCleared_linkOk (h : LinkOk s) : LinkOk (engineSlotCleared s) := by
  unfold engineSlotCleared
  split
  · exact release_linkOk h
  · exact h

theorem engineSlotLost_linkOk (h : LinkOk s) : LinkOk (engineSlotLost s) := by
  unfold engineSlotLost
  split
  · exact releaseOnly_linkOk h
  · exact h

theorem setOutcome_linkOk {o : FicheOutcome} (h : LinkOk s) : LinkOk (setOutcome o s) := h.frame (by simp) (by simp)

theorem linkLost_linkOk (cause : LossCause) (s : State) :
    LinkOk (jobTests (takeLinkLoss (jobProceeds (engineSlotCleared (linkDown cause s))))) := by
  have proceeded := jobProceeds_linkOk (engineSlotCleared_linkOk (linkDown_linkOk cause s))
  have ended : ∀ o, LinkOk (endingActions (setOutcome o (jobProceeds (engineSlotCleared (linkDown cause s))))) :=
    fun _ => endingActions_linkOk (setOutcome_linkOk proceeded)
  refine jobTests_linkOk ?_
  unfold takeLinkLoss
  (repeat' split)
  · exact ended _
  · exact ended _
  · exact proceeded
  · exact ended _
  · exact proceeded
  · exact proceeded
  · exact proceeded

theorem takeAbort_linkOk {tag : Tag} {e : LinkErrReport} (h : LinkOk s) (hu : s.link.state = .up) :
    LinkOk (takeAbort tag e s) := by
  have answered : ∀ a, LinkOk (composeSlot .priority (.aborted a) s) := fun _ => composeSlot_linkOk h rfl
  unfold takeAbort abortTaken
  dsimp only
  (repeat' split)
  · exact jobTests_linkOk (endingActions_linkOk (flushInbound_linkOk (setOutcome_linkOk (answered _))
      (by simpa using hu)))
  · exact answered _
  · exact dropFrame_linkOk h hu

/-- A RESET leaves RESETDONE alone in the report queue, under an open window (R193). -/
theorem resetLink_linkOk {opt : ResetOption} {tag : Tag} (hu : s.link.state = .up) : LinkOk (resetLink opt tag s) :=
  linkOk_granted (g := .resetDone (resetDoneOf opt tag s)) rfl hu rfl rfl rfl rfl (Nat.min_le_left ..) rfl rfl

theorem softResetJob_linkOk {again : Bool} (h : LinkOk s) : LinkOk (softResetJob again s) := by
  unfold softResetJob
  (repeat' split)
  · exact h
  · exact endingActions_linkOk (setOutcome_linkOk h)
  · exact endingActions_linkOk (setOutcome_linkOk h)
  · exact endingActions_linkOk (setOutcome_linkOk h)
  · exact h.frame (by simp) (by simp)
  · exact h
  · exact h.frame (by simp) (by simp)

theorem takeSoftReset_linkOk {tag : Tag} (hu : s.link.state = .up) : LinkOk (takeSoftReset tag s) := by
  have proceeded := jobProceeds_linkOk (engineSlotCleared_linkOk (resetLink_linkOk (opt := .soft) (tag := tag) hu))
  exact jobTests_linkOk (softResetJob_linkOk (clearIntake_linkOk (proceeded.frame (by simp) (by simp))))

theorem takeFullReset_linkOk {tag : Tag} (hu : s.link.state = .up) : LinkOk (takeFullReset tag s) := by
  have lost := engineSlotLost_linkOk (resetLink_linkOk (opt := .full) (tag := tag) hu)
  exact jobTests_linkOk (stopEngine_linkOk (clearIntake_linkOk (lost.frame (by simp [discardFiche])
    (by simp [discardFiche]))))

theorem takeRecord_linkOk {r : Record} {bytes : List Byte} (h : LinkOk s) (hu : s.link.state = .up) :
    LinkOk (takeRecord r bytes s) := by
  unfold takeRecord
  split
  · exact takeAbort_linkOk h hu
  · split
    · exact takeFullReset_linkOk hu
    · exact takeSoftReset_linkOk hu
  all_goals
    (repeat' split)
    · exact dropFrame_linkOk h hu
    · exact dropFrame_linkOk h hu
    · exact h.queued hu (by simp_all) (by omega) (by simp_all)

theorem takeFrame_linkOk {bytes : List Byte} (h : LinkOk s) (hu : s.link.state = .up) : LinkOk (takeFrame bytes s) := by
  unfold takeFrame
  split
  · exact dropFrame_linkOk h hu
  · exact takeRecord_linkOk h hu

/-! ### Every command -/

/-- An event of a link that is UP, which keeps the bounds there (R181, R202). -/
theorem upEvent_linkOk {u : State} (h : LinkOk s) (hu : s.link.state = .up → LinkOk u)
    (he : (if s.linkUp then .next (linkFinish s u) else .next s : Host.Outcome State Fault Refusal) = .next t) :
    LinkOk t := by
  split at he <;> cases he
  · exact linkFinish_linkOk (hu (by simpa [State.linkUp] using ‹s.linkUp = true›))
  · exact h

/-- With signal detected a link that was DOWN is as empty in TRAINING (R181). -/
theorem execSignalDetectRising_linkOk (h : LinkOk s) (he : execSignalDetectRising s = .next t) : LinkOk t := by
  unfold execSignalDetectRising at he
  split at he <;> cases he
  · have down : s.link.state ≠ .up := by simp [*]
    exact { h with not_up := fun _ => h.not_up down }
  · exact h

/-- HELLO stands alone in the queue of a link that was empty, and opens the window (R183, R190). -/
theorem execAlignment_linkOk (h : LinkOk s) (he : execAlignment s = .next t) : LinkOk t := by
  unfold execAlignment at he
  split at he <;> cases he
  · have training : s.link.state ≠ .up := by simp [*]
    obtain ⟨inbound, -, slots, -, -, -⟩ := h.not_up training
    obtain ⟨-, band, phead⟩ := h.emptied training
    exact linkFinish_linkOk (linkOk_granted (g := .hello (helloOf s)) rfl rfl inbound rfl rfl slots h.counter_le band
      phead)
  · exact h

theorem execLossOfSignal_linkOk {cause : LossCause} (h : LinkOk s) (he : execLossOfSignal cause s = .next t) :
    LinkOk t := by
  unfold execLossOfSignal at he
  split at he <;> cases he
  · exact h
  · exact linkLost_linkOk cause s

theorem execTransmissionEnds_linkOk (h : LinkOk s) (he : execTransmissionEnds s = .next t) : LinkOk t := by
  unfold execTransmissionEnds at he
  split at he <;> cases he
  · exact h
  · exact linkFinish_linkOk h.transmissionEnded

theorem exec_linkOk {c : Instr} (h : LinkOk s) (he : exec c s = .next t) : LinkOk t := by
  have concluded : ∀ {after}, (∀ u, after = some u → LinkOk u) → conclude s after = .next t → LinkOk t :=
    conclude_keeps (fun _ _ => linkFinish_linkOk) h
  cases c with
  | powerOn => cases he; exact linkOk_reset.frame rfl rfl
  | signalDetectRising => exact execSignalDetectRising_linkOk h he
  | alignment => exact execAlignment_linkOk h he
  | lossOfSignal cause => exact execLossOfSignal_linkOk h he
  | frameReceived bytes => exact upEvent_linkOk h (takeFrame_linkOk h) he
  | frameEndedByStartDelimiter bytes => exact upEvent_linkOk h (dropFrame_linkOk h) he
  | transmissionEnds => exact execTransmissionEnds_linkOk h he
  | reportPlaced => exact concluded (fun _ => placeWaiting_linkOk h) he
  | fopen => exact concluded (fun _ => offerFopen_linkOk h) he
  | fclose => exact concluded (fun _ => offerFclose_linkOk h) he
  | phead => exact concluded (fun _ => examinePhead_linkOk h) he
  | pheadTake => exact concluded (fun _ => takePhead_linkOk h) he
  | pband => exact concluded (fun _ => examinePband_linkOk h) he
  | bandLine => exact concluded (fun _ => takeBandLine_linkOk h) he
  | pend => exact concluded (fun _ => examinePend_linkOk h) he
  | topMarginLine => cases he; exact appendTopMargin_linkOk h
  | fillLine => cases he; exact appendBottomFill_linkOk h
  | twrite => exact concluded (fun _ => offerTwrite_linkOk h) he
  | tread => exact concluded (fun _ => offerTread_linkOk h) he
  | qstat => exact concluded (fun _ => offerQstat_linkOk h) he
  | abort tag => exact upEvent_linkOk h (takeAbort_linkOk h) he
  | resetFull tag => exact upEvent_linkOk h takeFullReset_linkOk he
  | resetSoft tag => exact upEvent_linkOk h takeSoftReset_linkOk he
  | done n => exact concluded (fun _ => takeDone_linkOk h) he
  | fault n code => exact concluded (fun _ => takeFault_linkOk h) he
  | motionTimeout => exact concluded (fun _ => takeTimeout_linkOk h) he
  | conversion raw => exact concluded (fun _ => acceptConversion_linkOk h) he
  | warmTimerExpiry => exact concluded (fun _ => expireWarm_linkOk h) he
  | parkTimerExpiry =>
    simp only [exec, execParkTimerExpiry] at he
    split at he <;> cases he <;> exact h.frame (by simp) (by simp)
  | lineEnd => exact concluded (fun _ => endImageLine_linkOk h) he
  | floodLineEnd => exact concluded (fun _ => endFloodLine_linkOk h) he
  | holdTimerExpiry => exact concluded (fun _ => expireHold_linkOk h) he
  | lastCharacterSent =>
    simp only [exec, execLastCharacterSent] at he
    split at he <;> cases he <;> exact h.frame rfl rfl
  | receivedLineIgnored line => exact concluded (fun _ => takeLine_linkOk h) he

/-- Settles O1: a step is a command on the state with the queue's rest, and every command keeps the bounds. -/
theorem feedLinkBoundsAreKept : Obligations.FeedLinkBoundsAreKept := by
  intro s t h hs
  obtain rfl | ⟨c, rest, he⟩ := step_cases hs
  · exact h
  · exact exec_linkOk (h.frame (t := { s with pending := rest }) rfl rfl) he

end Sys2Proof.Machine
end

section
/-!
PROOFS. O13, O14 and O21: the end of an event, the queues and slots, and the link coming up.
-/

open Sys2Proof

namespace Sys2Proof.Machine

variable {s s0 : State}

/-! ### The state of the link -/

theorem linkUp_of_up (h : s.link.state = .up) : s.linkUp = true := by simp [State.linkUp, h]

theorem linkUp_of_not_up (h : s.link.state ≠ .up) : s.linkUp = false := by simpa [State.linkUp] using h

/-! ### The end of an event (O13) -/

theorem creditIfDue_not_due {c0 : Nat}
    (h : s.link.reports ≠ [] ∨ s.link.windowOpen = true ∨ c0 ≠ 0 ∨ s.link.counter = 0) : creditIfDue c0 s = s := by
  unfold creditIfDue
  split
  · rename_i due
    simp only [Bool.and_eq_true, beq_iff_eq, decide_eq_true_eq, List.isEmpty_iff, Bool.not_eq_true'] at due
    obtain ⟨⟨⟨⟨-, start⟩, risen⟩, queue⟩, window⟩ := due
    simp [queue, window, start, Nat.ne_of_gt risen] at h
  · rfl

theorem creditIfDue_due (hu : s.link.state = .up) (hq : s.link.reports = []) (hw : s.link.windowOpen = false)
    (hc : 0 < s.link.counter) : creditIfDue 0 s = placeReport .credit s := by
  simp [creditIfDue, linkUp_of_up hu, hq, hw, hc]

theorem beginTransmission_busy {x : Sending} (h : s.link.inTransmission = some x) : beginTransmission s = s := by
  simp [beginTransmission, h]

theorem beginTransmission_empty (h : s.link.reports = []) : beginTransmission s = s := by
  unfold beginTransmission
  split
  · simp_all
  · rfl

theorem beginTransmission_begins {r : Report} {rest : List Report} (hu : s.link.state = .up)
    (hn : s.link.inTransmission = none) (hq : s.link.reports = r :: rest) :
    beginTransmission s = { s with link := { s.link with
      reports := rest
      inTransmission := some { report := r, credit := if r.isGrant then 16 else s.link.counter, rebase := r.isGrant }
      counter := 0
      windowOpen := s.link.windowOpen && !r.isGrant } } := by
  simp only [beginTransmission, hn, hq, linkUp_of_up hu, if_true]
  rfl

/-- Settles O13: a CREDIT falls due with an empty queue alone, a transmission with a report queued. -/
theorem eventEndCreditsThenTransmits : Obligations.EventEndCreditsThenTransmits := by
  intro s0 s
  refine ⟨linkFinish_not_up, fun hu => ⟨fun x r rest hx hq => ?_, fun r rest hn hq => ?_, fun hq hw h0 hc => ?_,
    fun hq hnot => ?_⟩⟩
  · rw [linkFinish, creditIfDue_not_due (.inl (by simp [hq])), beginTransmission_busy hx]
  · rw [linkFinish, creditIfDue_not_due (.inl (by simp [hq])), beginTransmission_begins hu hn hq]
  · rw [linkFinish, h0, creditIfDue_due hu hq hw hc]
    have queued : (placeReport .credit s).link.reports = [.credit] := by simp [placeReport, hq]
    cases hx : s.link.inTransmission with
    | none =>
      rw [beginTransmission_begins (by simpa using hu) (by simpa using hx) queued]
      simp [placeReport, State.setLink, Report.isGrant, hq, hw]
    | some x =>
      rw [beginTransmission_busy (by simpa using hx)]
      simp [placeReport, State.setLink, hq]
  · rw [linkFinish, creditIfDue_not_due (.inr hnot), beginTransmission_empty hq]

/-! ### The queues and slots (O14) -/

theorem queueRoom_iff : queueRoom s = true ↔ s.link.reports.length < 32 := decide_eq_true_iff

theorem composedReportsReachTheQueue : Clauses.ComposedReportsReachTheQueue := by
  intro p r s
  refine ⟨fun hd => ?_, fun hu hroom => ?_, fun hu hfull => ?_, fun hu hfree hwait => ?_⟩
  · simp [composeSlot, composeDiscard, linkUp_of_not_up hd]
  · have room : queueRoom s = true := queueRoom_iff.mpr hroom
    refine ⟨?_, fun hs => ?_⟩
    · simp [composeDiscard, linkUp_of_up hu, room, placeReport, State.setLink]
    · have free : slotFree s p = true := by simp [slotFree, hs]
      simp [composeSlot, linkUp_of_up hu, room, free, hs, placeReport, State.setLink]
  · have full : queueRoom s = false := Bool.eq_false_iff.mpr (by simpa [queueRoom_iff] using hfull)
    simp [composeDiscard, linkUp_of_up hu, full, State.setLink]
  · have waits : ¬ (queueRoom s && s.link.slots.isEmpty) = true := by
      rw [Bool.and_eq_true, queueRoom_iff, List.isEmpty_iff]
      exact fun ⟨room, unheld⟩ => hwait.elim (fun full => by omega) fun held => held unheld
    simp [composeSlot, linkUp_of_up hu, hfree, waits, State.setLink]

/-- Settles O14: each composition by the link's state, the room and the slots; the leaving of records by unfolding. -/
theorem reportsAndRecordsMoveThroughTheQueues : Obligations.ReportsAndRecordsMoveThroughTheQueues :=
  ⟨composedReportsReachTheQueue, fun _ => ⟨rfl, rfl, fun _ _ _ => rfl⟩⟩

/-! ### The link comes up (O21) -/

/-- The link UP with HELLO alone in the report queue and the grant window open, before the event's end (R183, R190). -/
def helloQueued (s : State) : State :=
  s.setLink { s.link with state := .up, reports := [.hello (helloOf s)], windowOpen := true }

theorem exec_alignment (h : s.link.state = .training) : exec .alignment s = .next (linkFinish s (helloQueued s)) :=
  if_pos h

/-- Under the open window no CREDIT is composed, and HELLO begins (R189, R198). -/
theorem linkFinish_helloQueued : linkFinish s0 (helloQueued s) = beginTransmission (helloQueued s) :=
  congrArg beginTransmission (creditIfDue_not_due (.inr (.inl rfl)))

/-- Settles O21: HELLO, alone in the queue of an idle transmitter, begins at the event's end. -/
theorem linkTrainsAndComesUp : Obligations.LinkTrainsAndComesUp := by
  intro s
  refine ⟨fun hd => if_pos hd, fun ht hn => ?_⟩
  rw [exec_alignment ht, linkFinish_helloQueued, beginTransmission_begins (s := helloQueued s) rfl hn rfl]
  rfl

end Sys2Proof.Machine
end

section
/-!
PROOFS. O15, O18 and O19: the bytes of a frame, their judgement, and what a frame does.
-/

open Sys2Proof

namespace Sys2Proof.Machine

variable {s : State} {bytes payload : List Byte} {kind flags : Byte} {tag : Tag} {k : RecordKind}

/-! ### The bytes of a frame (O15) -/

theorem headerBytes_length (kind flags : Byte) (n : Nat) (tag : Tag) : (headerBytes kind flags n tag).length = 8 := by
  simp [headerBytes]

theorem recordKindOf_code (k : RecordKind) : recordKindOf k.code.toNat = some k := by cases k <;> rfl

theorem recordKindOf_unknown {n : Nat} (h : n = 0 ∨ 10 < n) : recordKindOf n = none := by
  unfold recordKindOf
  split
  case h_11 => rfl
  all_goals omega

/-- The header's fields stand at their offsets (R206). -/
theorem frameBytes_fields (h : payload.length ≤ 16384) :
    byteAt (frameBytes kind flags tag payload) 0 = kind.toNat ∧
    byteAt (frameBytes kind flags tag payload) 1 = flags.toNat ∧
    numberAt (frameBytes kind flags tag payload) 2 2 = payload.length ∧
    numberAt (frameBytes kind flags tag payload) 4 4 = tag.toNat := by
  have length : payload.length < 256 ^ 2 := by omega
  have tagged : tag.toNat < 256 ^ 4 := tag.isLt
  simp only [frameBytes, headerBytes, List.append_assoc, List.cons_append]
  refine ⟨byteAt_cons_zero .., byteAt_cons_zero .., ?_, ?_⟩
  · rw [numberAt_cons, numberAt_cons, numberAt_front length]
  · rw [numberAt_cons, numberAt_cons, numberAt_append (by simp), natToBytes_length, numberAt_front tagged]

/-- The payload stands behind the 8 bytes of the header, in front of the 4 of the check (R184). -/
theorem frameBytes_payload (kind flags : Byte) (tag : Tag) (payload : List Byte) :
    ((frameBytes kind flags tag payload).drop 8).take payload.length = payload := by
  rw [frameBytes, List.append_assoc, List.drop_left' (headerBytes_length ..), List.take_left' rfl]

/-- A frame's own check matches: it is the check of all that stands in front of it (R184). -/
theorem checkMatches_append (bs : List Byte) : checkMatches (bs ++ checkBytes bs) = true := by
  have front : (bs ++ checkBytes bs).length - 4 = bs.length := by simp [checkBytes]
  rw [checkMatches, front, List.take_left' rfl, List.drop_left' rfl, beq_self_eq_true]

theorem recordOf_frameBytes (h : payload.length ≤ 16384) (k : RecordKind) :
    recordOf k (frameBytes kind flags tag payload) = { kind := k, flags := flags, tag := tag, payload := payload } := by
  obtain ⟨-, flagged, -, tagged⟩ := frameBytes_fields (kind := kind) (flags := flags) (tag := tag) h
  have behind : (frameBytes kind flags tag payload).length - 12 = payload.length := by
    rw [frameBytes_length, Nat.add_sub_cancel_left]
  rw [recordOf, behind, frameBytes_payload, flagged, tagged]
  simp

/-! ### Tests 1 to 4 (R185) -/

theorem judgeBytes_long (h : 16396 < bytes.length) : judgeBytes bytes = .inl .recordLength := by
  have counted : countedBytes bytes > Config.frameByteCap - 1 := by simp [countedBytes, Config.frameByteCap]; omega
  rw [judgeBytes, if_pos counted]

theorem not_counted_long (h : bytes.length ≤ 16396) : ¬ countedBytes bytes > Config.frameByteCap - 1 := by
  simp [countedBytes, Config.frameByteCap]
  omega

theorem judgeBytes_damaged (h : bytes.length ≤ 16396) (hd : bytes.length < 12 ∨ checkMatches bytes = false) :
    judgeBytes bytes = .inl .linkCrc := by
  rw [judgeBytes, if_neg (not_counted_long h), if_pos hd]

/-- A frame of good length with its check passes tests 1 and 2 (R185). -/
structure IsChecked (bytes : List Byte) : Prop where
  long : 12 ≤ bytes.length
  counted : bytes.length ≤ 16396
  check : checkMatches bytes = true

theorem IsChecked.not_damaged (h : IsChecked bytes) : ¬ (bytes.length < 12 ∨ checkMatches bytes = false) := by
  simp [h.check, h.long]

theorem judgeBytes_badLength (h : IsChecked bytes)
    (hl : 16384 < numberAt bytes 2 2 ∨ numberAt bytes 2 2 ≠ bytes.length - 12) :
    judgeBytes bytes = .inl .recordLength := by
  rw [judgeBytes, if_neg (not_counted_long h.counted), if_neg h.not_damaged]
  exact if_pos hl

theorem IsChecked.goodLength (h : IsChecked bytes) (hl : numberAt bytes 2 2 = bytes.length - 12) :
    ¬ (numberAt bytes 2 2 > Config.payloadMax ∨ numberAt bytes 2 2 ≠ bytes.length - 12) := by
  have counted := h.counted
  simp only [Config.payloadMax]
  omega

theorem judgeBytes_unknown (h : IsChecked bytes) (hl : numberAt bytes 2 2 = bytes.length - 12)
    (hk : recordKindOf (byteAt bytes 0) = none) : judgeBytes bytes = .inl .unknownKind := by
  rw [judgeBytes, if_neg (not_counted_long h.counted), if_neg h.not_damaged, if_neg (h.goodLength hl), hk]

theorem judgeBytes_passes (h : IsChecked bytes) (hl : numberAt bytes 2 2 = bytes.length - 12)
    (hk : recordKindOf (byteAt bytes 0) = some k) : judgeBytes bytes = .inr (recordOf k bytes) := by
  rw [judgeBytes, if_neg (not_counted_long h.counted), if_neg h.not_damaged, if_neg (h.goodLength hl), hk]

theorem frameBytes_isChecked (h : payload.length ≤ 16384) : IsChecked (frameBytes kind flags tag payload) := by
  have total := frameBytes_length kind flags tag payload
  exact ⟨by omega, by omega, checkMatches_append _⟩

/-- Settles O15: the built frame passes the tests one by one, and its fields are read at their offsets. -/
theorem frameBytesReadBack : Obligations.FrameBytesReadBack := by
  intro k flags tag payload h
  obtain ⟨code, -, length, -⟩ := frameBytes_fields (kind := k.code) (flags := flags) (tag := tag) h
  have total := frameBytes_length k.code flags tag payload
  rw [judgeBytes_passes (frameBytes_isChecked h) (by omega) (code ▸ recordKindOf_code k), recordOf_frameBytes h k]

/-! ### Frames that are dropped (O18) -/

theorem exec_frameReceived (hu : s.link.state = .up) :
    exec (.frameReceived bytes) s = .next (linkFinish s (takeFrame bytes s)) := if_pos (linkUp_of_up hu)

theorem takeFrame_dropped {code : LinkErrorCode} (h : judgeBytes bytes = .inl code) :
    takeFrame bytes s = dropFrame (linkErrOf code bytes) true s := by rw [takeFrame, h]

theorem takeFrame_record {r : Record} (h : judgeBytes bytes = .inr r) : takeFrame bytes s = takeRecord r bytes s := by
  rw [takeFrame, h]

/-- Settles O18: the tests in their order, and the drop with its LINKERR and credit. -/
theorem damagedFramesAreDropped : Obligations.DamagedFramesAreDropped := by
  intro bytes s hu
  refine ⟨judgeBytes_long, judgeBytes_damaged, fun h12 h hc => ⟨judgeBytes_badLength ⟨h12, h, hc⟩, fun hl hk => ?_⟩,
    fun code hj => ?_, ?_⟩
  · exact judgeBytes_unknown ⟨h12, h, hc⟩ hl (recordKindOf_unknown hk)
  · rw [exec_frameReceived hu, takeFrame_dropped hj]
    rfl
  · exact if_pos (linkUp_of_up hu)

/-! ### Frames that pass (O19) -/

theorem linkErrOf_frameBytes (code : LinkErrorCode) (h : payload.length ≤ 16384) :
    linkErrOf code (frameBytes kind flags tag payload) =
      { code := code, kindByte := kind.toNat, lengthField := payload.length, b := payload.length + 12
        tag := tag } := by
  obtain ⟨first, -, length, tagged⟩ := frameBytes_fields (kind := kind) (flags := flags) (tag := tag) h
  have total := frameBytes_length kind flags tag payload
  have counted : countedBytes (frameBytes kind flags tag payload) = payload.length + 12 := by
    simp only [countedBytes, Config.frameByteCap]
    omega
  rw [linkErrOf, first, length, tagged, counted, if_neg (by omega), if_neg (by omega), BitVec.ofNat_toNat,
    BitVec.setWidth_eq]

/-- A record that is no priority record is queued, or dropped with FLOW (R185 tests 6 to 8). -/
theorem takeRecord_queues {r : Record} (ha : r.kind ≠ .abort) (hr : r.kind ≠ .reset) :
    takeRecord r bytes s =
      if s.link.windowOpen = true ∨ 16 ≤ s.link.inbound.length then dropFrame (linkErrOf .flow bytes) false s
      else s.setLink { s.link with inbound := s.link.inbound ++ [r] } := by
  have tests : ∀ u v : State, (if s.link.windowOpen = true then u else
      if Config.inboundSize ≤ s.link.inbound.length then u else v) =
      if s.link.windowOpen = true ∨ 16 ≤ s.link.inbound.length then u else v := fun u v => by
    rw [ite_or]
    rfl
  unfold takeRecord
  split
  · exact absurd ‹_› ha
  · exact absurd ‹_› hr
  all_goals exact tests ..

theorem passingRecordsAreQueued : Clauses.PassingRecordsAreQueued := by
  intro k flags tag payload s ha hr h hu
  have received := exec_frameReceived (bytes := frameBytes k.code flags tag payload) hu
  rw [takeFrame_record (frameBytesReadBack k flags tag payload h), takeRecord_queues ha hr] at received
  refine ⟨fun hw hn => ?_, fun hfull => ?_⟩
  · rw [received, if_neg (by simpa [hw] using hn)]
    rfl
  · rw [received, if_pos hfull, linkErrOf_frameBytes .flow h]
    rfl

theorem priorityFramesActAsCommands : Clauses.PriorityFramesActAsCommands := by
  intro flags tag payload s h
  have acts : ∀ k u, takeRecord { kind := k, flags := flags, tag := tag, payload := payload }
      (frameBytes k.code flags tag payload) s = u → exec (.frameReceived (frameBytes k.code flags tag payload)) s =
        if s.linkUp then .next (linkFinish s u) else .next s := by
    rintro k u rfl
    rw [← takeFrame_record (frameBytesReadBack k flags tag payload h)]
    rfl
  refine ⟨fun hs => acts .abort _ ?_, fun hb => acts .reset _ ?_, fun hb => acts .reset _ ?_⟩
  · simp only [takeRecord, takeAbort, hs, if_true]
  · simp only [takeRecord, Record.optionBit, hb, if_true]
  · simp only [takeRecord, Record.optionBit, hb, Bool.false_eq_true, if_false]

/-- Settles O19: the frame's record is the one that was sent, and goes its kind's way. -/
theorem passingFramesAreTaken : Obligations.PassingFramesAreTaken :=
  ⟨passingRecordsAreQueued, priorityFramesActAsCommands⟩

end Sys2Proof.Machine
end

section
/-!
PROOFS. O11 and O12: what a step runs, and that every command answers a next state which keeps the waiting commands: no
operation of the blocks touches the queue (log 2), so each event hands it on.
-/

namespace Sys2Proof.Machine

variable {s t : State}

/-! ### One step (O11) -/

theorem step_cons {c : Instr} {rest : List Instr} (h : s.pending = c :: rest) :
    step s = exec c { s with pending := rest } := by
  rw [step, h]

theorem step_nil (h : s.pending = []) : step s = .next s := by
  rw [step, h]

/-- Settles O11: the queue holds a command or is empty. -/
theorem stepRunsTheFrontCommand : Obligations.StepRunsTheFrontCommand := ⟨fun _ _ _ => step_cons, fun _ => step_nil⟩

/-! ### Answers that keep the queue (O12) -/

/-- A next state is answered, with the waiting commands of s. -/
def AnswersNext (s : State) (o : Host.Outcome State Fault Refusal) : Prop := ∃ t, o = .next t ∧ t.pending = s.pending

theorem AnswersNext.of_pending (h : t.pending = s.pending) : AnswersNext s (.next t) := ⟨t, rfl, h⟩

/-- An event's end leaves the queue, whether the event was due or not (log 1). -/
theorem conclude_answersNext {after : Option State} (h : ∀ u, after = some u → u.pending = s.pending) :
    AnswersNext s (conclude s after) := by
  cases after with
  | none => exact .of_pending rfl
  | some u => exact .of_pending (by simpa using h u rfl)

/-- An event that is due under a condition only answers where the condition fails as well (log 1). -/
theorem ite_answersNext {p : Prop} [Decidable p] {u : State} (h : u.pending = s.pending) :
    AnswersNext s (if p then .next u else .next s) := by
  split
  · exact .of_pending h
  · exact .of_pending rfl

/-! ### Records -/

theorem offerFopen_pending (he : offerFopen s = some t) : t.pending = s.pending := by
  obtain ⟨r, code, rfl⟩ | ⟨r, f, rfl, -, -⟩ := offerFopen_cases he
  · simp
  · simp [takeFopen]

theorem takeFclose_pending (r : Record) (s : State) : (takeFclose r s).pending = s.pending := by
  unfold takeFclose
  split <;> simp

theorem offerFclose_pending (he : offerFclose s = some t) : t.pending = s.pending := by
  unfold offerFclose at he
  (repeat' split at he) <;> cases he
  · simp
  · exact takeFclose_pending ..

theorem examinePhead_pending (he : examinePhead s = some t) : t.pending = s.pending := by
  unfold examinePhead at he
  (repeat' split at he) <;> cases he
  · simp
  · simp
  · simp [checkPhead]

theorem takePhead_pending (he : takePhead s = some t) : t.pending = s.pending := by
  unfold takePhead at he
  (repeat' split at he) <;> cases he
  · simp
  · simp
  · simp
  · simp [takePage]

theorem beginBand_pending (r : Record) (s : State) : (beginBand r s).pending = s.pending := by
  unfold beginBand
  (repeat' split) <;> simp

theorem examinePband_pending (he : examinePband s = some t) : t.pending = s.pending := by
  unfold examinePband at he
  (repeat' split at he) <;> cases he
  · simp
  · exact beginBand_pending ..
  · simp
  · simp

theorem consumeLine_pending {c : Context} {b : Band} {payload : List Byte} (he : consumeLine c b payload s = some t) :
    t.pending = s.pending := by
  unfold consumeLine at he
  dsimp only at he
  (repeat' split at he) <;> cases he <;> simp

theorem takeBandLine_pending (he : takeBandLine s = some t) : t.pending = s.pending := by
  unfold takeBandLine at he
  (repeat' split at he)
  · exact consumeLine_pending he
  · cases he
  · cases he

theorem examinePend_pending (he : examinePend s = some t) : t.pending = s.pending := by
  unfold examinePend at he
  (repeat' split at he) <;> cases he <;> simp

theorem appendTopMargin_pending (s : State) : (appendTopMargin s).pending = s.pending := by
  unfold appendTopMargin appendFill
  dsimp only
  (repeat' split) <;> simp

theorem appendBottomFill_pending (s : State) : (appendBottomFill s).pending = s.pending := by
  unfold appendBottomFill appendFill
  dsimp only
  (repeat' split) <;> simp

theorem offerTwrite_pending (he : offerTwrite s = some t) : t.pending = s.pending := by
  unfold offerTwrite at he
  (repeat' split at he) <;> cases he <;> simp

theorem offerTread_pending (he : offerTread s = some t) : t.pending = s.pending := by
  unfold offerTread at he
  (repeat' split at he) <;> cases he <;> simp

theorem clearOption_pending (r : Record) (s : State) : (clearOption r s).pending = s.pending := by
  unfold clearOption
  split <;> simp

theorem offerQstat_pending (he : offerQstat s = some t) : t.pending = s.pending := by
  unfold offerQstat at he
  (repeat' split at he) <;> cases he
  simp [clearOption_pending]

/-! ### Conversions, timers and line ends -/

theorem acceptConversion_pending {raw : Nat} (he : acceptConversion raw s = some t) : t.pending = s.pending := by
  unfold acceptConversion at he
  dsimp only at he
  (repeat' split at he) <;> cases he <;> simp

theorem expireWarm_pending (he : expireWarm s = some t) : t.pending = s.pending := by
  unfold expireWarm at he
  split at he <;> cases he
  simp

theorem endImageLine_pending (he : endImageLine s = some t) : t.pending = s.pending := by
  unfold endImageLine at he
  split at he <;> cases he
  simp

theorem endFloodLine_pending (he : endFloodLine s = some t) : t.pending = s.pending := by
  unfold endFloodLine at he
  split at he <;> cases he
  simp

theorem expireHold_pending (he : expireHold s = some t) : t.pending = s.pending := by
  unfold expireHold at he
  split at he <;> cases he
  simp

/-! ### Placed reports and replies -/

/-- The engine releases, and it and the job controller make their tests; no other producer goes on with anything. -/
theorem producerProceeds_pending (p : Producer) (s : State) : (producerProceeds p s).pending = s.pending := by
  cases p with
  | engine =>
    simp only [producerProceeds, jobTests_frame]
    split <;> simp
  | job => simp [producerProceeds]
  | tables => rfl
  | status => rfl
  | link => rfl
  | priority => rfl

theorem placeWaiting_pending (he : placeWaiting s = some t) : t.pending = s.pending := by
  unfold placeWaiting at he
  (repeat' split at he) <;> cases he
  simp [producerProceeds_pending]

theorem takeDone_pending {n : CommandNumber} (he : takeDone n s = some t) : t.pending = s.pending := by
  unfold takeDone at he
  (repeat' split at he) <;> cases he
  simp

theorem takeFault_pending {n : CommandNumber} {code : ReplyCode} (he : takeFault n code s = some t) :
    t.pending = s.pending := by
  unfold takeFault at he
  (repeat' split at he) <;> cases he <;> simp

theorem takeTimeout_pending (he : takeTimeout s = some t) : t.pending = s.pending := by
  unfold takeTimeout at he
  split at he <;> cases he
  simp

/-- A line is taken as the reply it spells (R139, log 13). -/
theorem takeLine_pending {l : List Byte} (he : takeLine l s = some t) : t.pending = s.pending := by
  unfold takeLine at he
  split at he
  · cases he
  · exact takeDone_pending he
  · exact takeFault_pending he

/-! ### Link loss, ABORT, RESET and frames -/

theorem engineSlotCleared_pending (s : State) : (engineSlotCleared s).pending = s.pending := by
  unfold engineSlotCleared
  split <;> simp

theorem engineSlotLost_pending (s : State) : (engineSlotLost s).pending = s.pending := by
  unfold engineSlotLost
  split <;> simp

theorem takeLinkLoss_pending (s : State) : (takeLinkLoss s).pending = s.pending := by
  unfold takeLinkLoss
  (repeat' split) <;> simp

theorem linkLost_pending (cause : LossCause) (s : State) :
    (jobTests (takeLinkLoss (jobProceeds (engineSlotCleared (linkDown cause s))))).pending = s.pending := by
  simp [takeLinkLoss_pending, engineSlotCleared_pending, linkDown]

theorem takeAbort_pending (tag : Tag) (e : LinkErrReport) (s : State) : (takeAbort tag e s).pending = s.pending := by
  unfold takeAbort abortTaken
  dsimp only
  (repeat' split) <;> simp

theorem resetLink_pending (opt : ResetOption) (tag : Tag) (s : State) : (resetLink opt tag s).pending = s.pending := by
  simp [resetLink]

theorem softResetJob_pending (again : Bool) (s : State) : (softResetJob again s).pending = s.pending := by
  unfold softResetJob
  (repeat' split) <;> simp

theorem takeSoftReset_pending (tag : Tag) (s : State) : (takeSoftReset tag s).pending = s.pending := by
  simp [takeSoftReset, softResetBlocks, softResetJob_pending, engineSlotCleared_pending, resetLink_pending]

theorem takeFullReset_pending (tag : Tag) (s : State) : (takeFullReset tag s).pending = s.pending := by
  simp [takeFullReset, fullResetBlocks, discardFiche, engineSlotLost_pending, resetLink_pending]

theorem takeRecord_pending (r : Record) (bytes : List Byte) (s : State) :
    (takeRecord r bytes s).pending = s.pending := by
  unfold takeRecord
  split
  · exact takeAbort_pending ..
  · split
    · exact takeFullReset_pending ..
    · exact takeSoftReset_pending ..
  all_goals (repeat' split) <;> simp

theorem takeFrame_pending (bytes : List Byte) (s : State) : (takeFrame bytes s).pending = s.pending := by
  unfold takeFrame
  split
  · simp
  · exact takeRecord_pending ..

/-! ### Every command -/

/-- An event of the link, with its end (R181, R202). -/
theorem linkEvent_answersNext {p : Prop} [Decidable p] {u : State} (h : u.pending = s.pending) :
    AnswersNext s (if p then .next (linkFinish s u) else .next s) := ite_answersNext (by simpa using h)

theorem exec_answersNext (c : Instr) (s : State) : AnswersNext s (exec c s) := by
  cases c with
  | powerOn => exact .of_pending rfl
  | signalDetectRising => exact ite_answersNext rfl
  | alignment => exact linkEvent_answersNext rfl
  | lossOfSignal cause =>
    simp only [exec, execLossOfSignal]
    split
    · exact .of_pending rfl
    · exact .of_pending (linkLost_pending cause s)
  | frameReceived bytes => exact linkEvent_answersNext (takeFrame_pending bytes s)
  | frameEndedByStartDelimiter bytes => exact linkEvent_answersNext (by simp)
  | transmissionEnds =>
    simp only [exec, execTransmissionEnds]
    split
    · exact .of_pending rfl
    · exact .of_pending (by simp)
  | reportPlaced => exact conclude_answersNext fun _ => placeWaiting_pending
  | fopen => exact conclude_answersNext fun _ => offerFopen_pending
  | fclose => exact conclude_answersNext fun _ => offerFclose_pending
  | phead => exact conclude_answersNext fun _ => examinePhead_pending
  | pheadTake => exact conclude_answersNext fun _ => takePhead_pending
  | pband => exact conclude_answersNext fun _ => examinePband_pending
  | bandLine => exact conclude_answersNext fun _ => takeBandLine_pending
  | pend => exact conclude_answersNext fun _ => examinePend_pending
  | topMarginLine => exact .of_pending (appendTopMargin_pending s)
  | fillLine => exact .of_pending (appendBottomFill_pending s)
  | twrite => exact conclude_answersNext fun _ => offerTwrite_pending
  | tread => exact conclude_answersNext fun _ => offerTread_pending
  | qstat => exact conclude_answersNext fun _ => offerQstat_pending
  | abort tag => exact linkEvent_answersNext (takeAbort_pending tag _ s)
  | resetFull tag => exact linkEvent_answersNext (takeFullReset_pending tag s)
  | resetSoft tag => exact linkEvent_answersNext (takeSoftReset_pending tag s)
  | done n => exact conclude_answersNext fun _ => takeDone_pending
  | fault n code => exact conclude_answersNext fun _ => takeFault_pending
  | motionTimeout => exact conclude_answersNext fun _ => takeTimeout_pending
  | conversion raw => exact conclude_answersNext fun _ => acceptConversion_pending
  | warmTimerExpiry => exact conclude_answersNext fun _ => expireWarm_pending
  | parkTimerExpiry => exact ite_answersNext (by simp)
  | lineEnd => exact conclude_answersNext fun _ => endImageLine_pending
  | floodLineEnd => exact conclude_answersNext fun _ => endFloodLine_pending
  | holdTimerExpiry => exact conclude_answersNext fun _ => expireHold_pending
  | lastCharacterSent =>
    simp only [exec, execLastCharacterSent]
    split
    · exact .of_pending rfl
    · exact .of_pending rfl
  | receivedLineIgnored line => exact conclude_answersNext fun _ => takeLine_pending

/-- Settles O12: every command is an event of one of these forms, and what it does leaves the queue alone. -/
theorem everyCommandAnswersNext : Obligations.EveryCommandAnswersNext := exec_answersNext

end Sys2Proof.Machine
end
